-- ==== Sys2Proof/Word.lean ====
section
/-! DEFINITION. The two widths of the machine: the byte of every data register and memory cell, and the 16-bit
address of SP, the program counter and memory (00_scope.md R4). -/

namespace Sys2Proof

/-- An 8-bit value (R4: data register width). -/
abbrev Byte := BitVec 8

/-- A 16-bit value: an address or the value of a register pair (R4: memory address width). Arithmetic on it is
modulo 65536, which is the wrap-around of R58. -/
abbrev Addr := BitVec 16

end Sys2Proof
end

