-- ==== Sys2Proof/Syntax.lean ====
section
/-! DEFINITION. The instructions: one constructor for each instruction rule of files 40_ to 45_, which together cover
every row of spec/opcode_table.json (30_encoding.md R78), the ten undefined op codes included (R80). -/

namespace Sys2Proof

/-- The seven general registers, in the order of their 3-bit codes (10_state.md R21); code 110 is not a register
but the memory operand `M` (00_scope.md R8). -/
inductive Reg where
  | b | c | d | e | h | l | a
deriving DecidableEq, Repr

/-- The 16-bit registers that LXI, INX, DCX and DAD name (10_state.md R23). -/
inductive RegPair where
  | bc | de | hl | sp
deriving DecidableEq, Repr

/-- The pairs that PUSH and POP name (R23); the fourth code is PSW, which has constructors of its own. -/
inductive StackPair where
  | bc | de | hl
deriving DecidableEq, Repr

/-- The pairs that LDAX and STAX take their address from (30_encoding.md R73). -/
inductive IndexPair where
  | bc | de
deriving DecidableEq, Repr

/-- The eight conditions, in the order of their 3-bit codes (42_branch.md R170). -/
inductive Cond where
  | nz | z | nc | c | po | pe | p | m
deriving DecidableEq, Repr

/-- An instruction with its operands. Where a mnemonic has a form with `M` and a form with a register, each has a
constructor (and a rule) of its own. -/
inductive Instr where
  -- arithmetic, 40_arithmetic.md
  | add (r : Reg)              -- R101
  | addM                       -- R102
  | adi (data : Byte)          -- R103
  | adc (r : Reg)              -- R104
  | adcM                       -- R105
  | aci (data : Byte)          -- R106
  | sub (r : Reg)              -- R107
  | subM                       -- R108
  | sui (data : Byte)          -- R109
  | sbb (r : Reg)              -- R110
  | sbbM                       -- R111
  | sbi (data : Byte)          -- R112
  | inr (r : Reg)              -- R116
  | inrM                       -- R117
  | dcr (r : Reg)              -- R118
  | dcrM                       -- R119
  | inx (rp : RegPair)         -- R120
  | dcx (rp : RegPair)         -- R121
  | dad (rp : RegPair)         -- R122
  | daa                        -- R124
  -- logical, compare, complement, rotate, 41_logical.md
  | ana (r : Reg)              -- R141
  | anaM                       -- R142
  | ani (data : Byte)          -- R143
  | xra (r : Reg)              -- R144
  | xraM                       -- R145
  | xri (data : Byte)          -- R146
  | ora (r : Reg)              -- R147
  | oraM                       -- R148
  | ori (data : Byte)          -- R149
  | cmp (r : Reg)              -- R150
  | cmpM                       -- R151
  | cpi (data : Byte)          -- R152
  | cma                        -- R153
  | cmc                        -- R154
  | stc                        -- R155
  | rlc                        -- R156
  | rrc                        -- R157
  | ral                        -- R158
  | rar                        -- R159
  -- branch, 42_branch.md
  | jmp (addr : Addr)          -- R171
  | jnz (addr : Addr)          -- R172
  | jz  (addr : Addr)          -- R173
  | jnc (addr : Addr)          -- R174
  | jc  (addr : Addr)          -- R175
  | jpo (addr : Addr)          -- R176
  | jpe (addr : Addr)          -- R177
  | jp  (addr : Addr)          -- R178
  | jm  (addr : Addr)          -- R179
  | call (addr : Addr)         -- R180
  | cnz (addr : Addr)          -- R181
  | cz  (addr : Addr)          -- R182
  | cnc (addr : Addr)          -- R183
  | cc  (addr : Addr)          -- R184
  | cpo (addr : Addr)          -- R185
  | cpe (addr : Addr)          -- R186
  | cp  (addr : Addr)          -- R187
  | cm  (addr : Addr)          -- R188
  | ret                        -- R189
  | rnz                        -- R190
  | rz                         -- R191
  | rnc                        -- R192
  | rc                         -- R193
  | rpo                        -- R194
  | rpe                        -- R195
  | rp                         -- R196
  | rm                         -- R197
  | rst (n : BitVec 3)         -- R198
  | pchl                       -- R199
  -- machine control and input/output, 43_machine_control_io.md
  | nop                        -- R211
  | hlt                        -- R212
  | di                         -- R213
  | ei                         -- R214
  | rim                        -- R215
  | sim                        -- R216
  | inPort (port : Byte)       -- R217
  | outPort (port : Byte)      -- R218
  -- data transfer, 44_data_transfer.md
  | mov (dst src : Reg)        -- R230
  | movFromM (dst : Reg)       -- R231
  | movToM (src : Reg)         -- R232
  | mvi (r : Reg) (data : Byte)        -- R233
  | mviM (data : Byte)         -- R234
  | lxi (rp : RegPair) (data : Addr)   -- R235
  | lda (addr : Addr)          -- R236
  | sta (addr : Addr)          -- R237
  | lhld (addr : Addr)         -- R238
  | shld (addr : Addr)         -- R239
  | ldax (ip : IndexPair)      -- R240
  | stax (ip : IndexPair)      -- R241
  | xchg                       -- R242
  -- stack, 45_stack.md
  | push (p : StackPair)       -- R262
  | pushPsw                    -- R263
  | pop (p : StackPair)        -- R264
  | popPsw                     -- R265
  | xthl                       -- R266
  | sphl                       -- R267
  /-- The op code byte is one of the ten that the table does not define (R80, R281). -/
  | undefinedOp (op : Byte)
deriving DecidableEq, Repr

end Sys2Proof
end

