-- ==== Sys2Proof/WellFormed.lean ====
section
/-! DEFINITION. Which instruction terms stand for bytes of memory. The operand types of Syntax.lean already admit
exactly the operands the encodings have (30_encoding.md R72 to R74, R81: all operand values are legal); the one
check left is that an undefined op code is one of the ten of R80. -/

namespace Sys2Proof

/-- The ten op code values with no row in the source's table (30_encoding.md R80). -/
def undefinedOpcodes : List Byte :=
  [0x08, 0x10, 0x18, 0x28, 0x38, 0xCB, 0xD9, 0xDD, 0xED, 0xFD]

/-- An instruction term is well formed when some bytes encode it. -/
def Instr.WellFormed : Instr → Bool
  | .undefinedOp op => undefinedOpcodes.contains op
  | _ => true

end Sys2Proof
end

