-- ==== Sys2Proof/Decode.lean ====
section
/-! DEFINITION. From bytes to an instruction and back: the byte-order helpers, the codes of the op code fields
(30_encoding.md R72, R73), the decoder (maps R75 to R77, total on every byte, R80), and the encoder. -/

namespace Sys2Proof

/-! ### Halves of a 16-bit value -/

/-- `hi:lo`, the 16-bit value with `hi` in bits 15:8 and `lo` in bits 7:0 (00_scope.md R5). -/
def word16 (hi lo : Byte) : Addr := hi ++ lo

/-- Bits 15:8. -/
def hiByte (v : Addr) : Byte := v.extractLsb' 8 8

/-- Bits 7:0. -/
def loByte (v : Addr) : Byte := v.extractLsb' 0 8

/-! ### Fields of the op code byte: `qq ddd sss` (R72) -/

/-- `qq`, bits 7:6. -/
def opQuadrant (op : Byte) : BitVec 2 := op.extractLsb' 6 2

/-- `ddd`, bits 5:3; also the fields `ooo`, `ccc` and `nnn` (R73). -/
def opMiddle (op : Byte) : BitVec 3 := op.extractLsb' 3 3

/-- `sss`, bits 2:0. -/
def opLow (op : Byte) : BitVec 3 := op.extractLsb' 0 3

/-- `rp`, bits 5:4 (R73). -/
def opPair (op : Byte) : BitVec 2 := op.extractLsb' 4 2

/-- Bit 3, which tells LXI from DAD, INX from DCX, and POP and PUSH from their neighbours (R75, R77). -/
def opBit3 (op : Byte) : Bool := op.getLsbD 3

/-! ### Codes and what they name -/

/-- The register of a 3-bit code (10_state.md R21); code 110 is the memory operand, not a register. -/
def regOfCode (code : BitVec 3) : Option Reg :=
  match code.toNat with
  | 0 => some .b
  | 1 => some .c
  | 2 => some .d
  | 3 => some .e
  | 4 => some .h
  | 5 => some .l
  | 7 => some .a
  | _ => none

/-- The 3-bit code of a register (R21). -/
def Reg.code : Reg → BitVec 3
  | .b => 0b000
  | .c => 0b001
  | .d => 0b010
  | .e => 0b011
  | .h => 0b100
  | .l => 0b101
  | .a => 0b111

/-- The pair of a 2-bit code in LXI, INX, DCX, DAD (10_state.md R23). -/
def pairOfCode (code : BitVec 2) : RegPair :=
  match code.toNat with
  | 0 => .bc
  | 1 => .de
  | 2 => .hl
  | _ => .sp

/-- The 2-bit code of a pair (R23). -/
def RegPair.code : RegPair → BitVec 2
  | .bc => 0b00
  | .de => 0b01
  | .hl => 0b10
  | .sp => 0b11

/-- The pair of a 2-bit code in PUSH and POP; none for 11, which is PSW (R23). -/
def stackPairOfCode (code : BitVec 2) : Option StackPair :=
  match code.toNat with
  | 0 => some .bc
  | 1 => some .de
  | 2 => some .hl
  | _ => none

/-- The 2-bit code of a pair in PUSH and POP (R23). -/
def StackPair.code : StackPair → BitVec 2
  | .bc => 0b00
  | .de => 0b01
  | .hl => 0b10

/-- The bit `p` of LDAX and STAX (30_encoding.md R73). -/
def IndexPair.code : IndexPair → BitVec 1
  | .bc => 0b0
  | .de => 0b1

/-! ### The decoder -/

/-- The instruction of an op code byte and the two bytes that follow it; an instruction of length 1 or 2 does not
look at the bytes it does not have. Quadrant 00, R75. -/
def decodeQuadrant0 (op data8 : Byte) (data16 : Addr) : Instr :=
  let mid := (opMiddle op).toNat
  match (opLow op).toNat with
  | 0 =>
    match mid with
    | 0 => .nop
    | 4 => .rim
    | 6 => .sim
    | _ => .undefinedOp op
  | 1 => if opBit3 op then .dad (pairOfCode (opPair op)) else .lxi (pairOfCode (opPair op)) data16
  | 2 =>
    match mid with
    | 0 => .stax .bc
    | 1 => .ldax .bc
    | 2 => .stax .de
    | 3 => .ldax .de
    | 4 => .shld data16
    | 5 => .lhld data16
    | 6 => .sta data16
    | _ => .lda data16
  | 3 => if opBit3 op then .dcx (pairOfCode (opPair op)) else .inx (pairOfCode (opPair op))
  | 4 =>
    match regOfCode (opMiddle op) with
    | some r => .inr r
    | none => .inrM
  | 5 =>
    match regOfCode (opMiddle op) with
    | some r => .dcr r
    | none => .dcrM
  | 6 =>
    match regOfCode (opMiddle op) with
    | some r => .mvi r data8
    | none => .mviM data8
  | _ =>
    match mid with
    | 0 => .rlc
    | 1 => .rrc
    | 2 => .ral
    | 3 => .rar
    | 4 => .daa
    | 5 => .cma
    | 6 => .stc
    | _ => .cmc

/-- Quadrant 01: `01 ddd sss` is MOV but for 76, which is HLT (R76). -/
def decodeQuadrant1 (op : Byte) : Instr :=
  match regOfCode (opMiddle op), regOfCode (opLow op) with
  | some dst, some src => .mov dst src
  | some dst, none => .movFromM dst
  | none, some src => .movToM src
  | none, none => .hlt

/-- Quadrant 10: `10 ooo sss` is an accumulator operation (R76). -/
def decodeQuadrant2 (op : Byte) : Instr :=
  match (opMiddle op).toNat, regOfCode (opLow op) with
  | 0, some r => .add r
  | 0, none => .addM
  | 1, some r => .adc r
  | 1, none => .adcM
  | 2, some r => .sub r
  | 2, none => .subM
  | 3, some r => .sbb r
  | 3, none => .sbbM
  | 4, some r => .ana r
  | 4, none => .anaM
  | 5, some r => .xra r
  | 5, none => .xraM
  | 6, some r => .ora r
  | 6, none => .oraM
  | _, some r => .cmp r
  | _, none => .cmpM

/-- Quadrant 11, R77. -/
def decodeQuadrant3 (op data8 : Byte) (data16 : Addr) : Instr :=
  let mid := (opMiddle op).toNat
  match (opLow op).toNat with
  | 0 =>
    match mid with
    | 0 => .rnz
    | 1 => .rz
    | 2 => .rnc
    | 3 => .rc
    | 4 => .rpo
    | 5 => .rpe
    | 6 => .rp
    | _ => .rm
  | 1 =>
    if opBit3 op then
      match mid with
      | 1 => .ret
      | 5 => .pchl
      | 7 => .sphl
      | _ => .undefinedOp op
    else
      match stackPairOfCode (opPair op) with
      | some p => .pop p
      | none => .popPsw
  | 2 =>
    match mid with
    | 0 => .jnz data16
    | 1 => .jz data16
    | 2 => .jnc data16
    | 3 => .jc data16
    | 4 => .jpo data16
    | 5 => .jpe data16
    | 6 => .jp data16
    | _ => .jm data16
  | 3 =>
    match mid with
    | 0 => .jmp data16
    | 1 => .undefinedOp op
    | 2 => .outPort data8
    | 3 => .inPort data8
    | 4 => .xthl
    | 5 => .xchg
    | 6 => .di
    | _ => .ei
  | 4 =>
    match mid with
    | 0 => .cnz data16
    | 1 => .cz data16
    | 2 => .cnc data16
    | 3 => .cc data16
    | 4 => .cpo data16
    | 5 => .cpe data16
    | 6 => .cp data16
    | _ => .cm data16
  | 5 =>
    if opBit3 op then
      match mid with
      | 1 => .call data16
      | _ => .undefinedOp op
    else
      match stackPairOfCode (opPair op) with
      | some p => .push p
      | none => .pushPsw
  | 6 =>
    match mid with
    | 0 => .adi data8
    | 1 => .aci data8
    | 2 => .sui data8
    | 3 => .sbi data8
    | 4 => .ani data8
    | 5 => .xri data8
    | 6 => .ori data8
    | _ => .cpi data8
  | _ => .rst (opMiddle op)

/-- The instruction that the op code byte `op` begins when `byte2` and `byte3` follow it: total on every byte (R80).
The operands are `data8 = byte2` and `data16 = addr16 = byte3:byte2` (R74). -/
def decodeBytes (op byte2 byte3 : Byte) : Instr :=
  let data16 := word16 byte3 byte2
  match (opQuadrant op).toNat with
  | 0 => decodeQuadrant0 op byte2 data16
  | 1 => decodeQuadrant1 op
  | 2 => decodeQuadrant2 op
  | _ => decodeQuadrant3 op byte2 data16

/-- The length of an instruction in bytes (R70, R71): 3 with a 16-bit operand, 2 with an 8-bit one, else 1. For an
undefined op code only the op code byte is read (R80: it has no length, nothing after it is decoded). -/
def Instr.length : Instr → Nat
  | .lxi _ _ | .lda _ | .sta _ | .lhld _ | .shld _ | .jmp _ | .call _
  | .jnz _ | .jz _ | .jnc _ | .jc _ | .jpo _ | .jpe _ | .jp _ | .jm _
  | .cnz _ | .cz _ | .cnc _ | .cc _ | .cpo _ | .cpe _ | .cp _ | .cm _ => 3
  | .mvi _ _ | .mviM _ | .adi _ | .aci _ | .sui _ | .sbi _ | .ani _ | .xri _ | .ori _ | .cpi _
  | .inPort _ | .outPort _ => 2
  | .add _ | .addM | .adc _ | .adcM | .sub _ | .subM | .sbb _ | .sbbM
  | .inr _ | .inrM | .dcr _ | .dcrM | .inx _ | .dcx _ | .dad _ | .daa
  | .ana _ | .anaM | .xra _ | .xraM | .ora _ | .oraM | .cmp _ | .cmpM
  | .cma | .cmc | .stc | .rlc | .rrc | .ral | .rar
  | .ret | .rnz | .rz | .rnc | .rc | .rpo | .rpe | .rp | .rm | .rst _ | .pchl
  | .nop | .hlt | .di | .ei | .rim | .sim
  | .mov _ _ | .movFromM _ | .movToM _ | .ldax _ | .stax _ | .xchg
  | .push _ | .pushPsw | .pop _ | .popPsw | .xthl | .sphl | .undefinedOp _ => 1

/-- The number of bytes an op code byte asks for; the bytes after it play no part (R70, R82). -/
def opLength (op : Byte) : Nat := (decodeBytes op 0 0).length

/-- Why a list of bytes is no instruction. -/
inductive DecodeError where
  /-- The list is empty. -/
  | noBytes
  /-- The op code asks for more bytes than the list holds. -/
  | truncated (op : Byte)
deriving DecidableEq, Repr

/-- Reads one instruction off the front of a list of bytes, and returns it with the rest of the list. -/
def decode : List Byte → Except DecodeError (Instr × List Byte)
  | [] => .error .noBytes
  | op :: rest =>
    match opLength op, rest with
    | 3, byte2 :: byte3 :: rest' => .ok (decodeBytes op byte2 byte3, rest')
    | 2, byte2 :: rest' => .ok (decodeBytes op byte2 0, rest')
    | 1, rest' => .ok (decodeBytes op 0 0, rest')
    | _, _ => .error (.truncated op)

/-! ### The encoder -/

/-- `qq ddd sss` (R72). -/
def opByte (q : BitVec 2) (mid low : BitVec 3) : Byte := q ++ mid ++ low

/-- `qq rp b sss`: a pair field and bit 3 (R73). -/
def opBytePair (q pair : BitVec 2) (bit3 : BitVec 1) (low : BitVec 3) : Byte := q ++ pair ++ bit3 ++ low

/-- Format F2: op code, `data8` (R71). -/
def form2 (op data : Byte) : List Byte := [op, data]

/-- Format F3: op code, low byte, high byte (R71, 20_memory.md R51). -/
def form3 (op : Byte) (data : Addr) : List Byte := [op, loByte data, hiByte data]

/-- The code `110` of the memory operand (R72). -/
def codeM : BitVec 3 := 0b110

/-- The bytes of an instruction, op code first (R71 to R77). -/
def encode : Instr → List Byte
  | .add r => [opByte 0b10 0b000 r.code]
  | .addM => [opByte 0b10 0b000 codeM]
  | .adi data => form2 (opByte 0b11 0b000 0b110) data
  | .adc r => [opByte 0b10 0b001 r.code]
  | .adcM => [opByte 0b10 0b001 codeM]
  | .aci data => form2 (opByte 0b11 0b001 0b110) data
  | .sub r => [opByte 0b10 0b010 r.code]
  | .subM => [opByte 0b10 0b010 codeM]
  | .sui data => form2 (opByte 0b11 0b010 0b110) data
  | .sbb r => [opByte 0b10 0b011 r.code]
  | .sbbM => [opByte 0b10 0b011 codeM]
  | .sbi data => form2 (opByte 0b11 0b011 0b110) data
  | .inr r => [opByte 0b00 r.code 0b100]
  | .inrM => [opByte 0b00 codeM 0b100]
  | .dcr r => [opByte 0b00 r.code 0b101]
  | .dcrM => [opByte 0b00 codeM 0b101]
  | .inx rp => [opBytePair 0b00 rp.code 0 0b011]
  | .dcx rp => [opBytePair 0b00 rp.code 1 0b011]
  | .dad rp => [opBytePair 0b00 rp.code 1 0b001]
  | .daa => [opByte 0b00 0b100 0b111]
  | .ana r => [opByte 0b10 0b100 r.code]
  | .anaM => [opByte 0b10 0b100 codeM]
  | .ani data => form2 (opByte 0b11 0b100 0b110) data
  | .xra r => [opByte 0b10 0b101 r.code]
  | .xraM => [opByte 0b10 0b101 codeM]
  | .xri data => form2 (opByte 0b11 0b101 0b110) data
  | .ora r => [opByte 0b10 0b110 r.code]
  | .oraM => [opByte 0b10 0b110 codeM]
  | .ori data => form2 (opByte 0b11 0b110 0b110) data
  | .cmp r => [opByte 0b10 0b111 r.code]
  | .cmpM => [opByte 0b10 0b111 codeM]
  | .cpi data => form2 (opByte 0b11 0b111 0b110) data
  | .cma => [opByte 0b00 0b101 0b111]
  | .cmc => [opByte 0b00 0b111 0b111]
  | .stc => [opByte 0b00 0b110 0b111]
  | .rlc => [opByte 0b00 0b000 0b111]
  | .rrc => [opByte 0b00 0b001 0b111]
  | .ral => [opByte 0b00 0b010 0b111]
  | .rar => [opByte 0b00 0b011 0b111]
  | .jmp addr => form3 (opByte 0b11 0b000 0b011) addr
  | .jnz addr => form3 (opByte 0b11 0b000 0b010) addr
  | .jz addr => form3 (opByte 0b11 0b001 0b010) addr
  | .jnc addr => form3 (opByte 0b11 0b010 0b010) addr
  | .jc addr => form3 (opByte 0b11 0b011 0b010) addr
  | .jpo addr => form3 (opByte 0b11 0b100 0b010) addr
  | .jpe addr => form3 (opByte 0b11 0b101 0b010) addr
  | .jp addr => form3 (opByte 0b11 0b110 0b010) addr
  | .jm addr => form3 (opByte 0b11 0b111 0b010) addr
  | .call addr => form3 (opByte 0b11 0b001 0b101) addr
  | .cnz addr => form3 (opByte 0b11 0b000 0b100) addr
  | .cz addr => form3 (opByte 0b11 0b001 0b100) addr
  | .cnc addr => form3 (opByte 0b11 0b010 0b100) addr
  | .cc addr => form3 (opByte 0b11 0b011 0b100) addr
  | .cpo addr => form3 (opByte 0b11 0b100 0b100) addr
  | .cpe addr => form3 (opByte 0b11 0b101 0b100) addr
  | .cp addr => form3 (opByte 0b11 0b110 0b100) addr
  | .cm addr => form3 (opByte 0b11 0b111 0b100) addr
  | .ret => [opByte 0b11 0b001 0b001]
  | .rnz => [opByte 0b11 0b000 0b000]
  | .rz => [opByte 0b11 0b001 0b000]
  | .rnc => [opByte 0b11 0b010 0b000]
  | .rc => [opByte 0b11 0b011 0b000]
  | .rpo => [opByte 0b11 0b100 0b000]
  | .rpe => [opByte 0b11 0b101 0b000]
  | .rp => [opByte 0b11 0b110 0b000]
  | .rm => [opByte 0b11 0b111 0b000]
  | .rst n => [opByte 0b11 n 0b111]
  | .pchl => [opByte 0b11 0b101 0b001]
  | .nop => [opByte 0b00 0b000 0b000]
  | .hlt => [opByte 0b01 codeM codeM]
  | .di => [opByte 0b11 0b110 0b011]
  | .ei => [opByte 0b11 0b111 0b011]
  | .rim => [opByte 0b00 0b100 0b000]
  | .sim => [opByte 0b00 0b110 0b000]
  | .inPort port => form2 (opByte 0b11 0b011 0b011) port
  | .outPort port => form2 (opByte 0b11 0b010 0b011) port
  | .mov dst src => [opByte 0b01 dst.code src.code]
  | .movFromM dst => [opByte 0b01 dst.code codeM]
  | .movToM src => [opByte 0b01 codeM src.code]
  | .mvi r data => form2 (opByte 0b00 r.code 0b110) data
  | .mviM data => form2 (opByte 0b00 codeM 0b110) data
  | .lxi rp data => form3 (opBytePair 0b00 rp.code 0 0b001) data
  | .lda addr => form3 (opByte 0b00 0b111 0b010) addr
  | .sta addr => form3 (opByte 0b00 0b110 0b010) addr
  | .lhld addr => form3 (opByte 0b00 0b101 0b010) addr
  | .shld addr => form3 (opByte 0b00 0b100 0b010) addr
  | .ldax ip => [opBytePair 0b00 (0b0#1 ++ ip.code) 1 0b010]
  | .stax ip => [opBytePair 0b00 (0b0#1 ++ ip.code) 0 0b010]
  | .xchg => [opByte 0b11 0b101 0b011]
  | .push p => [opBytePair 0b11 p.code 0 0b101]
  | .pushPsw => [opBytePair 0b11 0b11 0 0b101]
  | .pop p => [opBytePair 0b11 p.code 0 0b001]
  | .popPsw => [opBytePair 0b11 0b11 0 0b001]
  | .xthl => [opByte 0b11 0b100 0b011]
  | .sphl => [opByte 0b11 0b111 0b001]
  | .undefinedOp op => [op]

/-! ### An op code table word -/

/-- The byte of a table word at a given place: byte 0 is bits 7:0, byte 1 bits 15:8, and so on. -/
def wordByte (w place : Nat) : Byte := BitVec.ofNat 8 (w / 256 ^ place)

/-- The three bytes, in address order, of an instruction whose first `nbits` bits are `w` and whose other bits
are 0. -/
def tableWordBytes (nbits w : Nat) : List Byte :=
  let v := w % 2 ^ nbits
  [wordByte v 0, wordByte v 1, wordByte v 2]

/-- The instruction the decoder reads from a word of spec/opcode_table.json. -/
def decodeTableWord (nbits w : Nat) : Option Instr :=
  match decode (tableWordBytes nbits w) with
  | .ok (i, _) => some i
  | .error _ => none

end Sys2Proof
end

