-- ==== Sys2Proof/Config.lean ====
section
/-! DEFINITION. What a system around the processor fixes (the memory map), and the free values: constants with no
body, which stand for every value the spec leaves open (00_scope.md R4, the parameters marked OPEN). -/

namespace Sys2Proof

/-- What stands at a memory address (20_memory.md R57). -/
inductive MemKind where
  /-- Reads give the last value written; writes store. -/
  | ram
  /-- Reads give the fixed contents; writes are dropped. -/
  | rom
  /-- Nothing answers: a read gives any byte, a write is dropped. -/
  | absent
  /-- A memory-mapped device: a read gives any byte and is an event, a write is an event. -/
  | device
deriving DecidableEq, Repr

/-- A range of addresses, both ends included, of one kind (R57: `MemMap` may declare an address range). -/
structure Region where
  first : Nat
  last  : Nat
  kind  : MemKind
deriving DecidableEq, Repr

/-- The parameter `MemMap` (R4, R57). The empty list is the default: all 65536 bytes are RAM. -/
abbrev MemMap := List Region

/-- The parameter `ResetRegs` (R4, 10_state.md R46): the registers whose value after reset is unspecified. -/
structure ResetRegs where
  a : Byte
  b : Byte
  c : Byte
  d : Byte
  e : Byte
  h : Byte
  l : Byte
  flagS  : Bool
  flagZ  : Bool
  flagAC : Bool
  flagP  : Bool
  flagCY : Bool
  sp : Addr
deriving DecidableEq, Repr, Inhabited

/-- Free value: the byte the environment answers at the given draw, to an IN or to a read of a device or an absent
address, when no answer has been supplied (R53, R57; 93_implementation_defined.md U5, U7). DESIGN CHOICE, log 8
and log 11, safe. -/
opaque Config.envByte : Nat → Byte

/-- Free value: bits 5, 3 and 1 of the flag byte PUSH PSW stores, most significant first (10_state.md R28,
parameter `PswUndef`). DESIGN CHOICE, log 9, safe. -/
opaque Config.pswUndef : Nat → BitVec 3

/-- Free value: the level of SID at a RIM for which no input has been supplied (R36, U6). DESIGN CHOICE, log 7,
safe. -/
opaque Config.sidLevel : Nat → Bool

/-- Free value: the unspecified registers after a reset in mid-run (70_reset_and_hazards.md R320, parameter
`ResetRegs`). DESIGN CHOICE, log 16, safe. -/
opaque Config.resetRegs : Nat → ResetRegs

end Sys2Proof
end

