-- ==== Sys2Proof/Machine/State.lean ====
section
/-! DEFINITION. The machine's state as plain data (10_state.md R20), the data exchanged with the environment
(60_exceptions.md R313), the reasons a step can stop, and the state after reset (R46). -/

namespace Sys2Proof.Machine

/-- The seven general registers (R21). -/
structure Regs where
  a : Byte
  b : Byte
  c : Byte
  d : Byte
  e : Byte
  h : Byte
  l : Byte
deriving DecidableEq, Repr

/-- The five flags (R26). -/
structure Flags where
  /-- sign: bit 7 of the result -/
  s  : Bool
  /-- zero -/
  z  : Bool
  /-- auxiliary carry: out of bit 3 -/
  ac : Bool
  /-- parity: 1 for an even number of 1 bits -/
  p  : Bool
  /-- carry, or borrow of a subtraction -/
  cy : Bool
deriving DecidableEq, Repr

/-- Memory (R43): the listed bytes, by strictly rising address; every other address reads as `Memory.unlisted`. -/
abbrev Memory := List Host.Cell

/-- The interrupt request inputs (60_exceptions.md R284). -/
inductive IntSource where
  | trap | rst75 | rst65 | rst55 | intr
deriving DecidableEq, Repr

/-- What the environment presents during one step: the levels RIM reads, if the step executes RIM (R34, R36), and the
record that the sampling point after the instruction reads (R283). The levels of RST 6.5 and RST 5.5 at a RIM are
fields of their own, since they are read earlier than the sampling point. DESIGN CHOICE, log 6, safe. -/
structure EnvInput where
  /-- level of SID, read only by RIM (R36) -/
  sid : Bool
  /-- level of RST 6.5 when RIM reads it (R34) -/
  rim65 : Bool
  /-- level of RST 5.5 when RIM reads it (R34) -/
  rim55 : Bool
  /-- a TRAP request is present and not yet acknowledged (R283, R285) -/
  trap : Bool
  /-- a rising edge occurred on RST 7.5 since the previous sampling point (R283) -/
  e75 : Bool
  /-- level of RST 6.5 at the sampling point (R283) -/
  l65 : Bool
  /-- level of RST 5.5 at the sampling point (R283) -/
  l55 : Bool
  /-- level of INTR at the sampling point (R283) -/
  intr : Bool
  /-- `intrInstr`: the op code byte the interrupting device supplies (R301) -/
  intrOp : Byte
  /-- `intrInstr`: its second byte -/
  intrLo : Byte
  /-- `intrInstr`: its third byte -/
  intrHi : Byte
  /-- reset is applied instead of this step (70_reset_and_hazards.md R320) -/
  reset : Bool
deriving DecidableEq, Repr

/-- Every request input inactive: the premise `NoInterrupts` of R283 for one step, and no reset. -/
def EnvInput.idle : EnvInput where
  sid := false
  rim65 := false
  rim55 := false
  trap := false
  e75 := false
  l65 := false
  l55 := false
  intr := false
  intrOp := 0
  intrLo := 0
  intrHi := 0
  reset := false

/-- An event of the trace the machine exchanges with its environment (R53, R57, R313). -/
inductive Event where
  /-- IN read `value` from `port` (R217). -/
  | ioRead (port value : Byte)
  /-- OUT wrote `value` to `port` (R218). -/
  | ioWrite (port value : Byte)
  /-- A device address was read (R57). -/
  | memRead (addr : Addr) (value : Byte)
  /-- A device address was written (R57). -/
  | memWrite (addr : Addr) (value : Byte)
  /-- An interrupt was acknowledged at a sampling point (R313). -/
  | acknowledge (source : IntSource)
deriving DecidableEq, Repr

/-- The state. The fields from `regs` to `mem` are the spec's (R20); those from `memMap` on are the model's own: the
parameters R47 hands to the step relation, the output trace (R53), and the T-state counter (R331). -/
structure State where
  /-- A B C D E H L (R21) -/
  regs : Regs
  /-- S Z AC P CY (R26) -/
  flags : Flags
  /-- stack pointer (R24) -/
  sp : Addr
  /-- program counter: between steps, the address of the next op code byte (R25) -/
  pc : Addr
  /-- interrupt enable flip-flop (R33) -/
  inte : Bool
  /-- mask of RST 5.5, 1 = masked (R38) -/
  m55 : Bool
  /-- mask of RST 6.5 (R38) -/
  m65 : Bool
  /-- mask of RST 7.5 (R38) -/
  m75 : Bool
  /-- RST 7.5 request latch (R39) -/
  r75 : Bool
  /-- serial output data latch (R37) -/
  sod : Bool
  /-- set by HLT (R40) -/
  halted : Bool
  /-- hidden: set only during the step that executes EI (R41) -/
  eiInhibit : Bool
  /-- hidden: INTE as it was before the last TRAP, until the next RIM (R42) -/
  trapIE : Option Bool
  /-- memory (R43) -/
  mem : Memory
  /-- parameter `MemMap` (R57); no instruction writes it. Log 10 -/
  memMap : MemMap
  /-- parameter `IntEnv` (R283): one input a step, the first is the current one; idle when the list is empty.
  Log 5 -/
  env : List EnvInput
  /-- parameter `IoEnv` (R53): bytes the environment will answer, first next; a free value when empty. Log 8 -/
  answers : List Byte
  /-- the trace, oldest event first (R53, R313). Log 13 -/
  trace : List Event
  /-- how many free values have been drawn. Log 9 -/
  draws : Nat
  /-- the T-state counter `t` (R331). Log 17 -/
  tstates : Nat
deriving DecidableEq, Repr

/-- The machine's one fault (R281). -/
inductive Fault where
  /-- The byte fetched as an op code is one of the ten that the table does not define; carries the byte and the
  address it was fetched from. Raised by the meaning of `Instr.undefinedOp`. Safe: the chip goes on, the model stops
  (log 14). -/
  | undefinedOpcode (op : Byte) (pc : Addr)
deriving DecidableEq, Repr

/-- Reasons a step has no meaning. -/
inductive Refusal where
  /-- An instruction the dispatch does not model; raised by no arm of this model. Safe. -/
  | notModelled (mnemonic : String)
  /-- At an INTR acknowledge the device supplied an instruction other than RST n or CALL (R301, U10); carries its op
  code byte. Raised by `State.sample`. Safe: the chip goes on, the model stops (log 15). -/
  | intrInstruction (op : Byte)
deriving DecidableEq, Repr

/-- The outcome of a step of this machine. -/
abbrev Outcome := Host.Outcome State Fault Refusal

/-- The state right after reset (R46), in a system with all memory RAM and the premise `NoInterrupts` (the defaults
of D6 and D12). The spec leaves A to L, the flags and SP unspecified: they are 0 here. DESIGN CHOICE, logs 2, 3 and
4, unsafe. -/
def State.reset : State where
  regs := { a := 0, b := 0, c := 0, d := 0, e := 0, h := 0, l := 0 }
  flags := { s := false, z := false, ac := false, p := false, cy := false }
  sp := 0
  pc := 0
  inte := false
  m55 := true
  m65 := true
  m75 := true
  r75 := false
  sod := false
  halted := false
  eiInhibit := false
  trapIE := none
  mem := []
  memMap := []
  env := []
  answers := []
  trace := []
  draws := 0
  tstates := 0

end Sys2Proof.Machine
end

