-- ==== Sys2Proof/Machine/Flags.lean ====
section
/-! DEFINITION. Every flag computation of the spec: the helpers of 10_state.md R28 to R31, the increments R116 and
R118, DAD's carry R122, DAA R124, and the bitwise flags R140. -/

namespace Sys2Proof.Machine

/-- The number of 1 bits of a byte. -/
def countOnes (v : Byte) : Nat :=
  (v.getLsbD 0).toNat + (v.getLsbD 1).toNat + (v.getLsbD 2).toNat + (v.getLsbD 3).toNat +
  (v.getLsbD 4).toNat + (v.getLsbD 5).toNat + (v.getLsbD 6).toNat + (v.getLsbD 7).toNat

/-- P: the number of 1 bits is even (R29). -/
def evenParity (v : Byte) : Bool := countOnes v % 2 == 0

/-- The low nibble of a byte, as a number. -/
def lowNibble (v : Byte) : Nat := v.toNat % 16

/-- The high nibble of a byte, as a number. -/
def highNibble (v : Byte) : Nat := v.toNat / 16

/-- `szp(v)` (R29): S, Z and P from `v`; AC and CY as they are. -/
def Flags.szp (f : Flags) (v : Byte) : Flags :=
  { f with s := v.getLsbD 7, z := v == 0, p := evenParity v }

/-- `add8(a, b, c)` (R30): the sum of two bytes and a carry, with the five flags it writes. -/
def add8 (a b : Byte) (c : Bool) : Byte × Flags :=
  let sum := a.toNat + b.toNat + c.toNat
  let res : Byte := BitVec.ofNat 8 sum
  (res, { s := res.getLsbD 7, z := res == 0, p := evenParity res
          ac := decide (lowNibble a + lowNibble b + c.toNat > 15)
          cy := decide (sum > 255) })

/-- `sub8(a, b, c)` (R31): the subtraction as the addition of the complement of `b` and the inverted borrow; CY is the
inverse of that addition's carry, AC is its carry out of bit 3. -/
def sub8 (a b : Byte) (c : Bool) : Byte × Flags :=
  let sum := add8 a (b ^^^ 0xFF) (!c)
  (sum.1, { sum.2 with cy := !sum.2.cy })

/-- INR's result and flags (R116): CY is kept. -/
def inr8 (v : Byte) (f : Flags) : Byte × Flags :=
  let res := v + 1
  (res, { (f.szp res) with ac := lowNibble v == 15 })

/-- DCR's result and flags (R118): CY is kept. -/
def dcr8 (v : Byte) (f : Flags) : Byte × Flags :=
  let res := v - 1
  (res, { (f.szp res) with ac := lowNibble v != 0 })

/-- `logic_flags(res, is_and)` (R140): S, Z, P from the result, CY cleared, AC set by AND and cleared by OR and XOR. -/
def logicFlags (res : Byte) (isAnd : Bool) : Flags :=
  { s := res.getLsbD 7, z := res == 0, p := evenParity res, ac := isAnd, cy := false }

/-- DAD's sum and its carry out of bit 15 (R122). -/
def dad16 (x y : Addr) : Addr × Bool :=
  let sum := x.toNat + y.toNat
  (BitVec.ofNat 16 sum, decide (sum > 65535))

/-- DAA (R124): the decimal-adjusted accumulator and the five flags. CY is only ever left or set. -/
def daa8 (a : Byte) (f : Flags) : Byte × Flags :=
  let lo := lowNibble a
  let hi := highNibble a
  let fixLow := f.ac || decide (lo > 9)
  let fixHigh := f.cy || decide (hi > 9) || (hi == 9 && decide (lo > 9))
  let corrLow : Nat := if fixLow then 6 else 0
  let corr : Nat := corrLow + (if fixHigh then 0x60 else 0)
  let res : Byte := BitVec.ofNat 8 (a.toNat + corr)
  (res, { s := res.getLsbD 7, z := res == 0, p := evenParity res
          ac := decide (lo + corrLow > 15)
          cy := f.cy || fixHigh })

/-- The bit of a flag. -/
def flagBit (b : Bool) : BitVec 1 := BitVec.ofBool b

/-- The flag byte F that PUSH PSW stores (R28, R263): `S:Z:u5:AC:u3:P:u1:CY`, with `u` giving bits 5, 3 and 1. -/
def Flags.toByte (f : Flags) (u : BitVec 3) : Byte :=
  flagBit f.s ++ flagBit f.z ++ flagBit (u.getLsbD 2) ++ flagBit f.ac ++
  flagBit (u.getLsbD 1) ++ flagBit f.p ++ flagBit (u.getLsbD 0) ++ flagBit f.cy

/-- The flags that POP PSW loads from a byte (R28, R265): bits 5, 3 and 1 are discarded. -/
def Flags.ofByte (v : Byte) : Flags :=
  { s := v.getLsbD 7, z := v.getLsbD 6, ac := v.getLsbD 4, p := v.getLsbD 2, cy := v.getLsbD 0 }

/-- `cond(ccc)` (42_branch.md R170). -/
def Flags.holds (f : Flags) : Cond → Bool
  | .nz => !f.z
  | .z  => f.z
  | .nc => !f.cy
  | .c  => f.cy
  | .po => !f.p
  | .pe => f.p
  | .p  => !f.s
  | .m  => f.s

end Sys2Proof.Machine
end

