-- ==== Sys2Proof/Machine/Ops.lean ====
section
/-! DEFINITION. The named operations over registers, memory, the environment and the stack that every meaning is
written with; fetching an instruction; taking an interrupt and returning from one; the sampling point; reset. -/

namespace Sys2Proof.Machine

/-! ### Memory as data -/

/-- What an address with no entry reads as. The spec leaves RAM after power-on open (70_reset_and_hazards.md R322):
00H here. DESIGN CHOICE, log 1, unsafe. -/
def Memory.unlisted : Byte := 0

/-- The byte at an address. -/
def Memory.read : Memory → Nat → Byte
  | [], _ => Memory.unlisted
  | (k, v) :: rest, a => if k = a then v else Memory.read rest a

/-- Stores a byte and keeps the canonical form: the entry goes to its place by address, and storing what an unlisted
address reads as removes it. -/
def Memory.write : Memory → Nat → Byte → Memory
  | [], a, v => if v = Memory.unlisted then [] else [(a, v)]
  | (k, w) :: rest, a, v =>
    if a < k then (if v = Memory.unlisted then (k, w) :: rest else (a, v) :: (k, w) :: rest)
    else if k = a then (if v = Memory.unlisted then rest else (a, v) :: rest)
    else (k, w) :: Memory.write rest a v

/-- The canonical form, above a lower bound: addresses strictly rising and below 65536, no entry equal to what an
unlisted address reads as. -/
def Memory.wfFrom : Nat → Memory → Bool
  | _, [] => true
  | low, (k, v) :: rest =>
    decide (low ≤ k) && decide (k < 65536) && (v != Memory.unlisted) && Memory.wfFrom (k + 1) rest

/-- The canonical form of a memory. -/
def Memory.wf (m : Memory) : Bool := Memory.wfFrom 0 m

/-! ### Registers (R21 to R24) -/

/-- `x[i]` (00_scope.md R6). -/
def State.reg (s : State) : Reg → Byte
  | .a => s.regs.a
  | .b => s.regs.b
  | .c => s.regs.c
  | .d => s.regs.d
  | .e => s.regs.e
  | .h => s.regs.h
  | .l => s.regs.l

/-- A write of one general register in a register file. -/
def Regs.set (g : Regs) (r : Reg) (v : Byte) : Regs :=
  match r with
  | .a => { g with a := v }
  | .b => { g with b := v }
  | .c => { g with c := v }
  | .d => { g with d := v }
  | .e => { g with e := v }
  | .h => { g with h := v }
  | .l => { g with l := v }

/-- `x[i] <- v`. -/
def State.setReg (s : State) (r : Reg) (v : Byte) : State := { s with regs := s.regs.set r v }

/-- `A <- v`. -/
def State.setA (s : State) (v : Byte) : State := s.setReg .a v

/-- Writes the flags. -/
def State.setFlags (s : State) (f : Flags) : State := { s with flags := f }

/-- Writes CY only. -/
def State.setCY (s : State) (cy : Bool) : State := { s with flags := { s.flags with cy := cy } }

/-- `BC = B:C` (R23). -/
def State.bc (s : State) : Addr := word16 s.regs.b s.regs.c

/-- `DE = D:E` (R23). -/
def State.de (s : State) : Addr := word16 s.regs.d s.regs.e

/-- `HL = H:L` (R23): the address of every `M` operand (00_scope.md R8). -/
def State.hl (s : State) : Addr := word16 s.regs.h s.regs.l

/-- `rp[j]` (R23). -/
def State.pair (s : State) : RegPair → Addr
  | .bc => s.bc
  | .de => s.de
  | .hl => s.hl
  | .sp => s.sp

/-- `rp[j] <- v`: writing a pair writes both halves (R23). -/
def State.setPair (s : State) (rp : RegPair) (v : Addr) : State :=
  match rp with
  | .bc => { s with regs := { s.regs with b := hiByte v, c := loByte v } }
  | .de => { s with regs := { s.regs with d := hiByte v, e := loByte v } }
  | .hl => { s with regs := { s.regs with h := hiByte v, l := loByte v } }
  | .sp => { s with sp := v }

/-- The pair that a PUSH or POP names, among the 16-bit registers. -/
def stackRegPair : StackPair → RegPair
  | .bc => .bc
  | .de => .de
  | .hl => .hl

/-- The address LDAX and STAX use (R240, R241). -/
def State.indexAddr (s : State) : IndexPair → Addr
  | .bc => s.bc
  | .de => s.de

/-! ### The end of an instruction -/

/-- Ends an instruction at the given next address after the given T states: every instruction but EI leaves eiInhibit
at 0 (R41), and the T-state counter advances (70_reset_and_hazards.md R331). -/
def State.retire (s : State) (next : Addr) (t : Nat) : State :=
  { s with pc := next, eiInhibit := false, tstates := s.tstates + t }

/-- `pc <- pc + len`, modulo 65536 (R25). -/
def State.advance (s : State) (len : Nat) (t : Nat) : State := s.retire (s.pc + BitVec.ofNat 16 len) t

/-! ### The environment: events, draws, the current input -/

/-- Appends an event to the trace (20_memory.md R53). -/
def State.emit (s : State) (e : Event) : State := { s with trace := s.trace ++ [e] }

/-- A byte the environment supplies: the next answer listed, or a free value when none is (R53, R57). -/
def State.envByte (s : State) : Byte × State :=
  match s.answers with
  | v :: rest => (v, { s with answers := rest })
  | [] => (Config.envByte s.draws, { s with draws := s.draws + 1 })

/-- The bits 5, 3, 1 that a PUSH PSW stores: a free value, fresh at each execution (R28, R263). -/
def State.drawPsw (s : State) : BitVec 3 × State :=
  (Config.pswUndef s.draws, { s with draws := s.draws + 1 })

/-- The environment's input to the current step; idle once the list is used up (R283, `NoInterrupts`). -/
def State.input (s : State) : EnvInput := s.env.headD EnvInput.idle

/-- The level of SID now (R36): the current input's, or a free value when no input is listed. -/
def State.readSid (s : State) : Bool × State :=
  match s.env with
  | e :: _ => (e.sid, s)
  | [] => (Config.sidLevel s.draws, { s with draws := s.draws + 1 })

/-! ### Memory accesses (20_memory.md R55, R57) -/

/-- What `MemMap` declares an address to be: the first region that holds it, RAM when none does (R57). -/
def MemMap.kindAt : MemMap → Nat → MemKind
  | [], _ => .ram
  | r :: rest, a => if r.first ≤ a ∧ a ≤ r.last then r.kind else MemMap.kindAt rest a

/-- What stands at an address. -/
def State.kindAt (s : State) (a : Addr) : MemKind := MemMap.kindAt s.memMap a.toNat

/-- The byte held for an address, without an access. -/
def State.peek (s : State) (a : Addr) : Byte := Memory.read s.mem a.toNat

/-- `MemRead(a, 1)` by kind (R57). -/
def State.load (s : State) (a : Addr) : Byte × State :=
  match s.kindAt a with
  | .ram => (s.peek a, s)
  | .rom => (s.peek a, s)
  | .absent => s.envByte
  | .device => (s.envByte.1, s.envByte.2.emit (.memRead a s.envByte.1))

/-- `MemWrite(a, 1, v)` by kind (R57): a write to ROM or to an absent address is dropped (90_conflicts.md C13). -/
def State.store (s : State) (a : Addr) (v : Byte) : State :=
  match s.kindAt a with
  | .ram => { s with mem := Memory.write s.mem a.toNat v }
  | .rom => s
  | .absent => s
  | .device => s.emit (.memWrite a v)

/-! ### The stack (45_stack.md R260, R261) -/

/-- `push16(v)`: the high byte at SP-1 first, then the low byte at SP-2; SP falls by 2. -/
def State.push16 (s : State) (v : Addr) : State :=
  let stored := (s.store (s.sp - 1) (hiByte v)).store (s.sp - 2) (loByte v)
  { stored with sp := s.sp - 2 }

/-- `pop16()`: the low byte from SP first, then the high byte from SP+1; SP rises by 2. -/
def State.pop16 (s : State) : Addr × State :=
  let lo := s.load s.sp
  let hi := lo.2.load (s.sp + 1)
  (word16 hi.1 lo.1, { hi.2 with sp := s.sp + 2 })

/-! ### Fetch (R25, R55, R70) -/

/-- Reads the op code byte at pc, then as many further bytes as it asks for, each one a memory read at the next
address, and decodes them. The state is the one after the reads. -/
def State.fetch (s : State) : Instr × State :=
  let op := s.load s.pc
  match opLength op.1 with
  | 1 => (decodeBytes op.1 0 0, op.2)
  | 2 =>
    let byte2 := op.2.load (s.pc + 1)
    (decodeBytes op.1 byte2.1 0, byte2.2)
  | _ =>
    let byte2 := op.2.load (s.pc + 1)
    let byte3 := byte2.2.load (s.pc + 2)
    (decodeBytes op.1 byte2.1 byte3.1, byte3.2)

/-! ### Taking an interrupt, and returning (60_exceptions.md R297, R301, R302) -/

/-- The fixed entry address of a source (R300); INTR has none of its own. -/
def IntSource.entry : IntSource → Addr
  | .trap  => 0x0024
  | .rst75 => 0x003C
  | .rst65 => 0x0034
  | .rst55 => 0x002C
  | .intr  => 0x0000

/-- The flip-flops of an acknowledge (R297, R301): the halt state and eiInhibit end, INTE is cleared, a TRAP saves
INTE (R42), the RST 7.5 latch is cleared by its own acknowledge. The environment is told which source it was (R313). -/
def State.acknowledge (s : State) (source : IntSource) : State :=
  { s with
    halted := false
    eiInhibit := false
    inte := false
    trapIE := if source = IntSource.trap then some s.inte else s.trapIE
    r75 := if source = IntSource.rst75 then false else s.r75
    trace := s.trace ++ [.acknowledge source] }

/-- Taking an interrupt (R297, R301): the acknowledge, then pc is pushed and execution goes on at the target. -/
def State.takeInterrupt (s : State) (source : IntSource) (target : Addr) : State :=
  { (s.acknowledge source).push16 s.pc with pc := target }

/-- Where the instruction of an INTR acknowledge goes: RST n or CALL; no other instruction is accepted (R301). -/
def intrTarget (op lo hi : Byte) : Option Addr :=
  match decodeBytes op lo hi with
  | .rst n => some (8 * n.setWidth 16)
  | .call target => some target
  | _ => none

/-- The source taken at a sampling point, if any: priority TRAP, RST 7.5, RST 6.5, RST 5.5, INTR (R294, R295). R75
already holds this point's edge. TRAP ignores INTE and eiInhibit (D24, log 18). -/
def State.chosenSource (s : State) (e : EnvInput) : Option IntSource :=
  if e.trap then some .trap
  else if s.inte && !s.eiInhibit then
    if s.r75 && !s.m75 then some .rst75
    else if e.l65 && !s.m65 then some .rst65
    else if e.l55 && !s.m55 then some .rst55
    else if e.intr then some .intr
    else none
  else none

/-- The sampling point (R295, R296): the RST 7.5 edge is latched, then the chosen source, if any, is taken. The
current input is used up. -/
def State.sample (s : State) : Outcome :=
  let e := s.input
  let latched := { s with env := s.env.tail, r75 := s.r75 || e.e75 }
  match latched.chosenSource e with
  | none => .next latched
  | some .intr =>
    match intrTarget e.intrOp e.intrLo e.intrHi with
    | some target => .next (latched.takeInterrupt .intr target)
    | none => .refused (.intrInstruction e.intrOp)
  | some source => .next (latched.takeInterrupt source source.entry)

/-- Returning from a handler is RET (R302): pc is popped, nothing else is restored. -/
def State.returnFrom (s : State) (t : Nat) : State := s.pop16.2.retire s.pop16.1 t

/-! ### Reset in mid-run (70_reset_and_hazards.md R320) -/

/-- The state after a reset event: the fixed values of R46; A to L, the flags and SP unspecified again (a free value);
memory unchanged. Nothing is sampled. Log 16. -/
def State.applyReset (s : State) : State :=
  let v := Config.resetRegs s.draws
  { s with
    regs := { a := v.a, b := v.b, c := v.c, d := v.d, e := v.e, h := v.h, l := v.l }
    flags := { s := v.flagS, z := v.flagZ, ac := v.flagAC, p := v.flagP, cy := v.flagCY }
    sp := v.sp
    pc := 0
    inte := false
    m55 := true
    m65 := true
    m75 := true
    r75 := false
    sod := false
    halted := false
    eiInhibit := false
    trapIE := none
    env := s.env.tail
    draws := s.draws + 1 }

/-! ### Placing an instruction from outside the machine -/

/-- A fetch from this address reads what memory holds (R57: RAM or ROM). -/
def State.isPlain (s : State) (a : Addr) : Bool :=
  match s.kindAt a with
  | .ram => true
  | .rom => true
  | .absent => false
  | .device => false

/-- Puts a byte at an address from outside the machine, and makes the address RAM where it held no memory. -/
def State.placeByte (s : State) (a : Addr) (v : Byte) : State :=
  { s with
    mem := Memory.write s.mem a.toNat v
    memMap := if s.isPlain a then s.memMap else { first := a.toNat, last := a.toNat, kind := .ram } :: s.memMap }

/-- Puts bytes at consecutive addresses. -/
def State.placeBytes (s : State) (a : Addr) : List Byte → State
  | [] => s
  | v :: rest => (s.placeByte a v).placeBytes (a + 1) rest

/-- Makes the next step one that fetches: not halted, and no reset applied in it. -/
def State.readyToFetch (s : State) : State :=
  { s with
    halted := false
    env := match s.env with
      | [] => []
      | e :: rest => { e with reset := false } :: rest }

/-! ### Sequencing -/

/-- Goes on with `f` where the outcome is a next state. -/
def andThen (o : Outcome) (f : State → Outcome) : Outcome :=
  match o with
  | .next s => f s
  | .fault r => .fault r
  | .refused r => .refused r

end Sys2Proof.Machine
end

