-- ==== Sys2Proof/Machine/Operands.lean ====
section
/-! DEFINITION. The operand forms of the 8-bit instructions (00_scope.md R6 `rd8` and `wr8`, 30_encoding.md R74), and
the shapes of meaning that several instructions share: an accumulator operation, a compare, a conditional jump, call
or return. -/

namespace Sys2Proof.Machine

/-- An 8-bit source operand: a register, the memory byte at HL, or an immediate byte. -/
inductive Operand where
  | reg (r : Reg)
  | mem
  | imm (data : Byte)
deriving DecidableEq, Repr

/-- Reads an operand (R6, R8): `M` is one memory read at HL. -/
def State.readOperand (s : State) : Operand → Byte × State
  | .reg r => (s.reg r, s)
  | .mem => s.load s.hl
  | .imm data => (data, s)

/-- The length of an accumulator instruction with this operand (R71). -/
def Operand.len : Operand → Nat
  | .reg _ => 1
  | .mem => 1
  | .imm _ => 2

/-- The T states of an accumulator instruction with this operand (70_reset_and_hazards.md R332). -/
def Operand.tstates : Operand → Nat
  | .reg _ => 4
  | .mem => 7
  | .imm _ => 7

/-- An accumulator operation: `A` and all five flags from `f`, which takes A, the operand and CY. -/
def State.accumulate (s : State) (f : Byte → Byte → Bool → Byte × Flags) (src : Operand) : State :=
  let v := s.readOperand src
  let res := f v.2.regs.a v.1 v.2.flags.cy
  ((v.2.setA res.1).setFlags res.2).advance src.len src.tstates

/-- A compare: the flags of the subtraction, the result dropped (41_logical.md R150). -/
def State.compare (s : State) (src : Operand) : State :=
  let v := s.readOperand src
  (v.2.setFlags (sub8 v.2.regs.a v.1 false).2).advance src.len src.tstates

/-- AND with the flags of R140. -/
def and8 (a v : Byte) (_ : Bool) : Byte × Flags := (a &&& v, logicFlags (a &&& v) true)

/-- XOR with the flags of R140. -/
def xor8 (a v : Byte) (_ : Bool) : Byte × Flags := (a ^^^ v, logicFlags (a ^^^ v) false)

/-- OR with the flags of R140. -/
def or8 (a v : Byte) (_ : Bool) : Byte × Flags := (a ||| v, logicFlags (a ||| v) false)

/-- Increment or decrement of a register, by `f` (40_arithmetic.md R116, R118). -/
def State.stepReg (s : State) (f : Byte → Flags → Byte × Flags) (r : Reg) : State :=
  let res := f (s.reg r) s.flags
  ((s.setReg r res.1).setFlags res.2).advance 1 4

/-- Increment or decrement of the memory byte at HL, by `f`: one read, one write (R117, R119). -/
def State.stepMem (s : State) (f : Byte → Flags → Byte × Flags) : State :=
  let v := s.load s.hl
  let res := f v.1 s.flags
  ((v.2.store s.hl res.1).setFlags res.2).advance 1 10

/-- A conditional jump (42_branch.md R172 to R179). -/
def State.jumpIf (s : State) (cond : Cond) (target : Addr) : State :=
  if s.flags.holds cond then s.retire target 10 else s.advance 3 7

/-- A call: the return address is pushed and control goes to the target (R180, R198). -/
def State.callTo (s : State) (target : Addr) (len t : Nat) : State :=
  (s.push16 (s.pc + BitVec.ofNat 16 len)).retire target t

/-- A conditional call (R181 to R188). -/
def State.callIf (s : State) (cond : Cond) (target : Addr) : State :=
  if s.flags.holds cond then s.callTo target 3 18 else s.advance 3 9

/-- A conditional return (R190 to R197). -/
def State.returnIf (s : State) (cond : Cond) : State :=
  if s.flags.holds cond then s.returnFrom 12 else s.advance 1 6

end Sys2Proof.Machine
end

