-- ==== Sys2Proof/Machine/Arithmetic.lean ====
section
/-! DEFINITION. The arithmetic instructions (40_arithmetic.md). -/

namespace Sys2Proof.Machine

/-- ADD r (R101). -/
def execAdd (r : Reg) (s : State) : Outcome :=
  .next (s.accumulate (fun a v _ => add8 a v false) (.reg r))

/-- ADD M (R102). -/
def execAddM (s : State) : Outcome :=
  .next (s.accumulate (fun a v _ => add8 a v false) .mem)

/-- ADI data8 (R103). -/
def execAdi (data : Byte) (s : State) : Outcome :=
  .next (s.accumulate (fun a v _ => add8 a v false) (.imm data))

/-- ADC r (R104). -/
def execAdc (r : Reg) (s : State) : Outcome :=
  .next (s.accumulate add8 (.reg r))

/-- ADC M (R105). -/
def execAdcM (s : State) : Outcome :=
  .next (s.accumulate add8 .mem)

/-- ACI data8 (R106). -/
def execAci (data : Byte) (s : State) : Outcome :=
  .next (s.accumulate add8 (.imm data))

/-- SUB r (R107). -/
def execSub (r : Reg) (s : State) : Outcome :=
  .next (s.accumulate (fun a v _ => sub8 a v false) (.reg r))

/-- SUB M (R108). -/
def execSubM (s : State) : Outcome :=
  .next (s.accumulate (fun a v _ => sub8 a v false) .mem)

/-- SUI data8 (R109). -/
def execSui (data : Byte) (s : State) : Outcome :=
  .next (s.accumulate (fun a v _ => sub8 a v false) (.imm data))

/-- SBB r (R110). -/
def execSbb (r : Reg) (s : State) : Outcome :=
  .next (s.accumulate sub8 (.reg r))

/-- SBB M (R111). -/
def execSbbM (s : State) : Outcome :=
  .next (s.accumulate sub8 .mem)

/-- SBI data8 (R112). -/
def execSbi (data : Byte) (s : State) : Outcome :=
  .next (s.accumulate sub8 (.imm data))

/-- INR r (R116): CY is unchanged. -/
def execInr (r : Reg) (s : State) : Outcome := .next (s.stepReg inr8 r)

/-- INR M (R117). -/
def execInrM (s : State) : Outcome := .next (s.stepMem inr8)

/-- DCR r (R118): CY is unchanged. -/
def execDcr (r : Reg) (s : State) : Outcome := .next (s.stepReg dcr8 r)

/-- DCR M (R119). -/
def execDcrM (s : State) : Outcome := .next (s.stepMem dcr8)

/-- INX rp (R120): no flag. -/
def execInx (rp : RegPair) (s : State) : Outcome :=
  .next ((s.setPair rp (s.pair rp + 1)).advance 1 6)

/-- DCX rp (R121): no flag. -/
def execDcx (rp : RegPair) (s : State) : Outcome :=
  .next ((s.setPair rp (s.pair rp - 1)).advance 1 6)

/-- DAD rp (R122): CY only. -/
def execDad (rp : RegPair) (s : State) : Outcome :=
  let sum := dad16 s.hl (s.pair rp)
  .next (((s.setPair .hl sum.1).setCY sum.2).advance 1 10)

/-- DAA (R124). -/
def execDaa (s : State) : Outcome :=
  let res := daa8 s.regs.a s.flags
  .next (((s.setA res.1).setFlags res.2).advance 1 4)

end Sys2Proof.Machine
end

