-- ==== Sys2Proof/Machine/Branch.lean ====
section
/-! DEFINITION. The branch instructions (42_branch.md). None of them writes a flag or any interrupt state (R200). -/

namespace Sys2Proof.Machine

/-- JMP addr16 (R171). -/
def execJmp (addr : Addr) (s : State) : Outcome := .next (s.retire addr 10)

/-- JNZ addr16: jump if not zero (R172). -/
def execJnz (addr : Addr) (s : State) : Outcome := .next (s.jumpIf .nz addr)

/-- JZ addr16: jump if zero (R173). -/
def execJz (addr : Addr) (s : State) : Outcome := .next (s.jumpIf .z addr)

/-- JNC addr16: jump if no carry (R174). -/
def execJnc (addr : Addr) (s : State) : Outcome := .next (s.jumpIf .nc addr)

/-- JC addr16: jump if carry (R175). -/
def execJc (addr : Addr) (s : State) : Outcome := .next (s.jumpIf .c addr)

/-- JPO addr16: jump if parity odd (R176). -/
def execJpo (addr : Addr) (s : State) : Outcome := .next (s.jumpIf .po addr)

/-- JPE addr16: jump if parity even (R177). -/
def execJpe (addr : Addr) (s : State) : Outcome := .next (s.jumpIf .pe addr)

/-- JP addr16: jump if plus (R178). -/
def execJp (addr : Addr) (s : State) : Outcome := .next (s.jumpIf .p addr)

/-- JM addr16: jump if minus (R179). -/
def execJm (addr : Addr) (s : State) : Outcome := .next (s.jumpIf .m addr)

/-- CALL addr16 (R180): the return address is pc + 3. -/
def execCall (addr : Addr) (s : State) : Outcome := .next (s.callTo addr 3 18)

/-- CNZ addr16: call if not zero (R181). -/
def execCnz (addr : Addr) (s : State) : Outcome := .next (s.callIf .nz addr)

/-- CZ addr16: call if zero (R182). -/
def execCz (addr : Addr) (s : State) : Outcome := .next (s.callIf .z addr)

/-- CNC addr16: call if no carry (R183). -/
def execCnc (addr : Addr) (s : State) : Outcome := .next (s.callIf .nc addr)

/-- CC addr16: call if carry (R184). -/
def execCc (addr : Addr) (s : State) : Outcome := .next (s.callIf .c addr)

/-- CPO addr16: call if parity odd (R185). -/
def execCpo (addr : Addr) (s : State) : Outcome := .next (s.callIf .po addr)

/-- CPE addr16: call if parity even (R186). -/
def execCpe (addr : Addr) (s : State) : Outcome := .next (s.callIf .pe addr)

/-- CP addr16: call if plus (R187). -/
def execCp (addr : Addr) (s : State) : Outcome := .next (s.callIf .p addr)

/-- CM addr16: call if minus (R188). -/
def execCm (addr : Addr) (s : State) : Outcome := .next (s.callIf .m addr)

/-- RET (R189); also the return from an interrupt handler (60_exceptions.md R302). -/
def execRet (s : State) : Outcome := .next (s.returnFrom 10)

/-- RNZ: return if not zero (R190). -/
def execRnz (s : State) : Outcome := .next (s.returnIf .nz)

/-- RZ: return if zero (R191). -/
def execRz (s : State) : Outcome := .next (s.returnIf .z)

/-- RNC: return if no carry (R192). -/
def execRnc (s : State) : Outcome := .next (s.returnIf .nc)

/-- RC: return if carry (R193). -/
def execRc (s : State) : Outcome := .next (s.returnIf .c)

/-- RPO: return if parity odd (R194). -/
def execRpo (s : State) : Outcome := .next (s.returnIf .po)

/-- RPE: return if parity even (R195). -/
def execRpe (s : State) : Outcome := .next (s.returnIf .pe)

/-- RP: return if plus (R196). -/
def execRp (s : State) : Outcome := .next (s.returnIf .p)

/-- RM: return if minus (R197). -/
def execRm (s : State) : Outcome := .next (s.returnIf .m)

/-- RST n (R198): a one-byte call to 8*n; the return address is pc + 1. -/
def execRst (n : BitVec 3) (s : State) : Outcome := .next (s.callTo (8 * n.setWidth 16) 1 12)

/-- PCHL (R199). -/
def execPchl (s : State) : Outcome := .next (s.retire s.hl 6)

end Sys2Proof.Machine
end

