-- ==== Sys2Proof/Machine/Control.lean ====
section
/-! DEFINITION. The machine control, interrupt control and input/output instructions (43_machine_control_io.md), and
the meaning of an undefined op code (30_encoding.md R80). All are unprivileged: there is one mode
(60_exceptions.md R306). -/

namespace Sys2Proof.Machine

/-- NOP (R211). -/
def execNop (s : State) : Outcome := .next (s.advance 1 4)

/-- HLT (R212): pc moves past the HLT, then the machine stops. -/
def execHlt (s : State) : Outcome := .next { s.advance 1 5 with halted := true }

/-- DI (R213). -/
def execDi (s : State) : Outcome := .next { s.advance 1 4 with inte := false }

/-- EI (R214): INTE is 1 at once; eiInhibit holds maskable interrupts off at the next sampling point. -/
def execEi (s : State) : Outcome := .next { s.advance 1 4 with inte := true, eiInhibit := true }

/-- The byte RIM assembles (10_state.md R34), given the level of SID. Bit 3 is INTE, but once after a TRAP it is the
INTE of before the TRAP (R42). -/
def State.rimByte (s : State) (sid : Bool) : Byte :=
  flagBit sid ++ flagBit s.r75 ++ flagBit s.input.rim65 ++ flagBit s.input.rim55 ++
  flagBit (s.trapIE.getD s.inte) ++ flagBit s.m75 ++ flagBit s.m65 ++ flagBit s.m55

/-- RIM (R215): no flag; the INTE saved by a TRAP is forgotten. -/
def execRim (s : State) : Outcome :=
  let sid := s.readSid
  .next { (sid.2.setA (s.rimByte sid.1)).advance 1 4 with trapIE := none }

/-- SIM (R216, 10_state.md R35): three independent parts, chosen by bits 3, 4 and 6 of A. -/
def execSim (s : State) : Outcome :=
  let a := s.regs.a
  .next { s.advance 1 4 with
    m55 := if a.getLsbD 3 then a.getLsbD 0 else s.m55
    m65 := if a.getLsbD 3 then a.getLsbD 1 else s.m65
    m75 := if a.getLsbD 3 then a.getLsbD 2 else s.m75
    r75 := if a.getLsbD 4 then false else s.r75
    sod := if a.getLsbD 6 then a.getLsbD 7 else s.sod }

/-- IN port (R217): a byte the environment supplies, recorded in the trace (D11); no flag. -/
def execIn (port : Byte) (s : State) : Outcome :=
  let v := s.envByte
  .next (((v.2.emit (.ioRead port v.1)).setA v.1).advance 2 10)

/-- OUT port (R218): an event of the trace. -/
def execOut (port : Byte) (s : State) : Outcome :=
  .next ((s.emit (.ioWrite port s.regs.a)).advance 2 10)

/-- An undefined op code (R80, 60_exceptions.md R281): the model's fault, with the byte and its address. -/
def execUndefined (op : Byte) (s : State) : Outcome := .fault (.undefinedOpcode op s.pc)

end Sys2Proof.Machine
end

