-- ==== Sys2Proof/Machine/Logical.lean ====
section
/-! DEFINITION. The logical, compare, complement, carry and rotate instructions (41_logical.md). -/

namespace Sys2Proof.Machine

/-- ANA r (R141). -/
def execAna (r : Reg) (s : State) : Outcome := .next (s.accumulate and8 (.reg r))

/-- ANA M (R142). -/
def execAnaM (s : State) : Outcome := .next (s.accumulate and8 .mem)

/-- ANI data8 (R143). -/
def execAni (data : Byte) (s : State) : Outcome := .next (s.accumulate and8 (.imm data))

/-- XRA r (R144). -/
def execXra (r : Reg) (s : State) : Outcome := .next (s.accumulate xor8 (.reg r))

/-- XRA M (R145). -/
def execXraM (s : State) : Outcome := .next (s.accumulate xor8 .mem)

/-- XRI data8 (R146). -/
def execXri (data : Byte) (s : State) : Outcome := .next (s.accumulate xor8 (.imm data))

/-- ORA r (R147). -/
def execOra (r : Reg) (s : State) : Outcome := .next (s.accumulate or8 (.reg r))

/-- ORA M (R148). -/
def execOraM (s : State) : Outcome := .next (s.accumulate or8 .mem)

/-- ORI data8 (R149). -/
def execOri (data : Byte) (s : State) : Outcome := .next (s.accumulate or8 (.imm data))

/-- CMP r (R150). -/
def execCmp (r : Reg) (s : State) : Outcome := .next (s.compare (.reg r))

/-- CMP M (R151). -/
def execCmpM (s : State) : Outcome := .next (s.compare .mem)

/-- CPI data8 (R152). -/
def execCpi (data : Byte) (s : State) : Outcome := .next (s.compare (.imm data))

/-- CMA (R153): no flag. -/
def execCma (s : State) : Outcome := .next ((s.setA (s.regs.a ^^^ 0xFF)).advance 1 4)

/-- CMC (R154): CY only. -/
def execCmc (s : State) : Outcome := .next ((s.setCY (!s.flags.cy)).advance 1 4)

/-- STC (R155): CY only. -/
def execStc (s : State) : Outcome := .next ((s.setCY true).advance 1 4)

/-- RLC (R156): the 8 bits of A rotate left, bit 7 also goes to CY. -/
def execRlc (s : State) : Outcome :=
  let a := s.regs.a
  let a' : Byte := a.extractLsb' 0 7 ++ flagBit (a.getLsbD 7)
  .next (((s.setA a').setCY (a.getLsbD 7)).advance 1 4)

/-- RRC (R157): the 8 bits of A rotate right, bit 0 also goes to CY. -/
def execRrc (s : State) : Outcome :=
  let a := s.regs.a
  let a' : Byte := flagBit (a.getLsbD 0) ++ a.extractLsb' 1 7
  .next (((s.setA a').setCY (a.getLsbD 0)).advance 1 4)

/-- RAL (R158): the 9 bits of CY and A rotate left. -/
def execRal (s : State) : Outcome :=
  let a := s.regs.a
  let a' : Byte := a.extractLsb' 0 7 ++ flagBit s.flags.cy
  .next (((s.setA a').setCY (a.getLsbD 7)).advance 1 4)

/-- RAR (R159): the 9 bits of CY and A rotate right. -/
def execRar (s : State) : Outcome :=
  let a := s.regs.a
  let a' : Byte := flagBit s.flags.cy ++ a.extractLsb' 1 7
  .next (((s.setA a').setCY (a.getLsbD 0)).advance 1 4)

end Sys2Proof.Machine
end

