-- ==== Sys2Proof/Machine/Stack.lean ====
section
/-! DEFINITION. The stack instructions (45_stack.md). -/

namespace Sys2Proof.Machine

/-- PUSH rp (R262). -/
def execPush (p : StackPair) (s : State) : Outcome :=
  .next ((s.push16 (s.pair (stackRegPair p))).advance 1 12)

/-- PUSH PSW (R263): A and the flag byte; bits 5, 3, 1 of the flag byte are a free value (log 9). -/
def execPushPsw (s : State) : Outcome :=
  let u := s.drawPsw
  .next ((u.2.push16 (word16 s.regs.a (s.flags.toByte u.1))).advance 1 12)

/-- POP rp (R264): the low register from SP, the high one from SP+1. -/
def execPop (p : StackPair) (s : State) : Outcome :=
  let v := s.pop16
  .next ((v.2.setPair (stackRegPair p) v.1).advance 1 10)

/-- POP PSW (R265): all five flags from the byte at SP, A from the byte at SP+1. -/
def execPopPsw (s : State) : Outcome :=
  let v := s.pop16
  .next (((v.2.setA (hiByte v.1)).setFlags (Flags.ofByte (loByte v.1))).advance 1 10)

/-- XTHL (R266): reads SP, SP+1, then writes SP+1, SP; SP is unchanged. -/
def execXthl (s : State) : Outcome :=
  let lo := s.load s.sp
  let hi := lo.2.load (s.sp + 1)
  let written := (hi.2.store (s.sp + 1) s.regs.h).store s.sp s.regs.l
  .next ((written.setPair .hl (word16 hi.1 lo.1)).advance 1 16)

/-- SPHL (R267). -/
def execSphl (s : State) : Outcome := .next ((s.setPair .sp s.hl).advance 1 6)

end Sys2Proof.Machine
end

