-- ==== Sys2Proof/Machine/Transfer.lean ====
section
/-! DEFINITION. The data transfer instructions (44_data_transfer.md). None of them reads or writes a flag. -/

namespace Sys2Proof.Machine

/-- MOV r1,r2 (R230). -/
def execMov (dst src : Reg) (s : State) : Outcome := .next ((s.setReg dst (s.reg src)).advance 1 4)

/-- MOV r,M (R231): the old HL is the address. -/
def execMovFromM (dst : Reg) (s : State) : Outcome :=
  let v := s.load s.hl
  .next ((v.2.setReg dst v.1).advance 1 7)

/-- MOV M,r (R232). -/
def execMovToM (src : Reg) (s : State) : Outcome := .next ((s.store s.hl (s.reg src)).advance 1 7)

/-- MVI r,data8 (R233). -/
def execMvi (r : Reg) (data : Byte) (s : State) : Outcome := .next ((s.setReg r data).advance 2 7)

/-- MVI M,data8 (R234). -/
def execMviM (data : Byte) (s : State) : Outcome := .next ((s.store s.hl data).advance 2 10)

/-- LXI rp,data16 (R235). -/
def execLxi (rp : RegPair) (data : Addr) (s : State) : Outcome := .next ((s.setPair rp data).advance 3 10)

/-- LDA addr16 (R236). -/
def execLda (addr : Addr) (s : State) : Outcome :=
  let v := s.load addr
  .next ((v.2.setA v.1).advance 3 13)

/-- STA addr16 (R237). -/
def execSta (addr : Addr) (s : State) : Outcome := .next ((s.store addr s.regs.a).advance 3 13)

/-- LHLD addr16 (R238): L from the address, then H from the next. -/
def execLhld (addr : Addr) (s : State) : Outcome :=
  let lo := s.load addr
  let hi := lo.2.load (addr + 1)
  .next ((hi.2.setPair .hl (word16 hi.1 lo.1)).advance 3 16)

/-- SHLD addr16 (R239): L to the address, then H to the next. -/
def execShld (addr : Addr) (s : State) : Outcome :=
  .next (((s.store addr s.regs.l).store (addr + 1) s.regs.h).advance 3 16)

/-- LDAX rp (R240). -/
def execLdax (ip : IndexPair) (s : State) : Outcome :=
  let v := s.load (s.indexAddr ip)
  .next ((v.2.setA v.1).advance 1 7)

/-- STAX rp (R241). -/
def execStax (ip : IndexPair) (s : State) : Outcome :=
  .next ((s.store (s.indexAddr ip) s.regs.a).advance 1 7)

/-- XCHG (R242): both new values come from the old ones. -/
def execXchg (s : State) : Outcome :=
  .next (((s.setPair .hl s.de).setPair .de s.hl).advance 1 4)

end Sys2Proof.Machine
end

