-- ==== Sys2Proof/Machine/Step.lean ====
section
/-! DEFINITION. One step (00_scope.md R12), and where an instruction is placed so that the next step runs it. -/

namespace Sys2Proof.Machine

/-- One step: a reset the environment applies wins over everything (70_reset_and_hazards.md R320); a halted machine
only samples (60_exceptions.md R296); otherwise one instruction is fetched and executed, and then the interrupt
requests are sampled (R295). -/
def step (s : State) : Host.Outcome State Fault Refusal :=
  if s.input.reset then .next s.applyReset
  else if s.halted then s.sample
  else andThen (exec s.fetch.1 s.fetch.2) State.sample

/-- The state with an instruction placed at pc (its three bytes, those above `nbits` zero), so that the next step fetches and runs it: the
machine is not halted, no reset is applied in this step, and where the memory map does not let the three bytes be
fetched from memory they are made RAM. -/
def State.withFetchWord (s : State) (nbits w : Nat) : State :=
  State.readyToFetch (s.placeBytes s.pc (tableWordBytes nbits w))

end Sys2Proof.Machine
end

