-- ==== Sys2Proof/Safety.lean ====
section
/-! DEFINITION. The terms in which claims speak about the machine: what an instruction may write (the tables of
10_state.md R32 and 20_memory.md R55), the T states of R332, the premise `NoInterrupts`, the end of a run
(60_exceptions.md R312), and the invariant of every step. -/

namespace Sys2Proof.Machine

/-! ### What an instruction may write -/

/-- The names of the five flags (R26). -/
inductive FlagName where
  | s | z | ac | p | cy
deriving DecidableEq, Repr

/-- The value of a flag by name. -/
def Flags.bit (f : Flags) : FlagName → Bool
  | .s => f.s
  | .z => f.z
  | .ac => f.ac
  | .p => f.p
  | .cy => f.cy

/-- The flag side effects of 10_state.md R32: every instruction not listed there writes no flag. -/
def flagWritten (i : Instr) (f : FlagName) : Bool :=
  match i with
  | .add _ | .addM | .adi _ | .adc _ | .adcM | .aci _ => true
  | .sub _ | .subM | .sui _ | .sbb _ | .sbbM | .sbi _ => true
  | .cmp _ | .cmpM | .cpi _ => true
  | .ana _ | .anaM | .ani _ | .xra _ | .xraM | .xri _ => true
  | .ora _ | .oraM | .ori _ | .daa | .popPsw => true
  | .inr _ | .inrM | .dcr _ | .dcrM => f != .cy
  | .dad _ | .rlc | .rrc | .ral | .rar | .stc | .cmc => f == .cy
  | .inx _ | .dcx _ | .cma | .jmp _ | .jnz _ | .jz _ | .jnc _ | .jc _ | .jpo _ | .jpe _ | .jp _ | .jm _
  | .call _ | .cnz _ | .cz _ | .cnc _ | .cc _ | .cpo _ | .cpe _ | .cp _ | .cm _ | .ret | .rnz | .rz | .rnc
  | .rc | .rpo | .rpe | .rp | .rm | .rst _ | .pchl | .nop | .hlt | .di | .ei | .rim | .sim | .inPort _
  | .outPort _ | .mov _ _ | .movFromM _ | .movToM _ | .mvi _ _ | .mviM _ | .lxi _ _ | .lda _ | .sta _ | .lhld _
  | .shld _ | .ldax _ | .stax _ | .xchg | .push _ | .pushPsw | .pop _ | .xthl | .sphl | .undefinedOp _ => false

/-- A general register belongs to a pair (R23). -/
def inPair : RegPair → Reg → Bool
  | .bc, r => r == .b || r == .c
  | .de, r => r == .d || r == .e
  | .hl, r => r == .h || r == .l
  | .sp, _ => false

/-- The general registers an instruction may write: its destination (files 40_ to 45_). -/
def regWritten (i : Instr) (r : Reg) : Bool :=
  match i with
  | .add _ | .addM | .adi _ | .adc _ | .adcM | .aci _ => r == .a
  | .sub _ | .subM | .sui _ | .sbb _ | .sbbM | .sbi _ => r == .a
  | .ana _ | .anaM | .ani _ | .xra _ | .xraM | .xri _ => r == .a
  | .ora _ | .oraM | .ori _ => r == .a
  | .daa | .cma | .rlc | .rrc | .ral | .rar => r == .a
  | .lda _ | .ldax _ | .inPort _ | .rim | .popPsw => r == .a
  | .inr dst | .dcr dst | .mov dst _ | .movFromM dst | .mvi dst _ => r == dst
  | .inx rp | .dcx rp | .lxi rp _ => inPair rp r
  | .pop p => inPair (stackRegPair p) r
  | .dad _ | .lhld _ | .xthl => inPair .hl r
  | .xchg => inPair .hl r || inPair .de r
  | .inrM | .dcrM | .cmp _ | .cmpM | .cpi _ | .cmc | .stc | .jmp _ | .jnz _ | .jz _ | .jnc _ | .jc _ | .jpo _
  | .jpe _ | .jp _ | .jm _ | .call _ | .cnz _ | .cz _ | .cnc _ | .cc _ | .cpo _ | .cpe _ | .cp _ | .cm _ | .ret
  | .rnz | .rz | .rnc | .rc | .rpo | .rpe | .rp | .rm | .rst _ | .pchl | .nop | .hlt | .di | .ei | .sim
  | .outPort _ | .movToM _ | .mviM _ | .sta _ | .shld _ | .stax _ | .push _ | .pushPsw | .sphl | .undefinedOp _
    => false

/-- The condition of a conditional jump, call or return (42_branch.md R170). -/
def conditionOf : Instr → Option Cond
  | .jnz _ | .cnz _ | .rnz => some .nz
  | .jz _ | .cz _ | .rz => some .z
  | .jnc _ | .cnc _ | .rnc => some .nc
  | .jc _ | .cc _ | .rc => some .c
  | .jpo _ | .cpo _ | .rpo => some .po
  | .jpe _ | .cpe _ | .rpe => some .pe
  | .jp _ | .cp _ | .rp => some .p
  | .jm _ | .cm _ | .rm => some .m
  | .add _ | .addM | .adi _ | .adc _ | .adcM | .aci _ | .sub _ | .subM | .sui _ | .sbb _ | .sbbM | .sbi _
  | .inr _ | .inrM | .dcr _ | .dcrM | .inx _ | .dcx _ | .dad _ | .daa | .ana _ | .anaM | .ani _ | .xra _
  | .xraM | .xri _ | .ora _ | .oraM | .ori _ | .cmp _ | .cmpM | .cpi _ | .cma | .cmc | .stc | .rlc | .rrc
  | .ral | .rar | .jmp _ | .call _ | .ret | .rst _ | .pchl | .nop | .hlt | .di | .ei | .rim | .sim | .inPort _
  | .outPort _ | .mov _ _ | .movFromM _ | .movToM _ | .mvi _ _ | .mviM _ | .lxi _ _ | .lda _ | .sta _ | .lhld _
  | .shld _ | .ldax _ | .stax _ | .xchg | .push _ | .pushPsw | .pop _ | .popPsw | .xthl | .sphl
  | .undefinedOp _ => none

/-- An unconditional instruction is always taken; a conditional one when its condition holds. -/
def takenIn (i : Instr) (s : State) : Bool :=
  match conditionOf i with
  | some cond => s.flags.holds cond
  | none => true

/-- The instructions that move SP (R24): those that name it, and the stack users, the conditional ones when taken. -/
def spWritten (i : Instr) (s : State) : Bool :=
  match i with
  | .lxi rp _ | .inx rp | .dcx rp => rp == .sp
  | .sphl => true
  | .push _ | .pushPsw | .pop _ | .popPsw | .call _ | .ret | .rst _ => true
  | .cnz _ | .cz _ | .cnc _ | .cc _ | .cpo _ | .cpe _ | .cp _ | .cm _
  | .rnz | .rz | .rnc | .rc | .rpo | .rpe | .rp | .rm => takenIn i s
  | .add _ | .addM | .adi _ | .adc _ | .adcM | .aci _ | .sub _ | .subM | .sui _ | .sbb _ | .sbbM | .sbi _
  | .inr _ | .inrM | .dcr _ | .dcrM | .dad _ | .daa | .ana _ | .anaM | .ani _ | .xra _ | .xraM | .xri _
  | .ora _ | .oraM | .ori _ | .cmp _ | .cmpM | .cpi _ | .cma | .cmc | .stc | .rlc | .rrc | .ral | .rar | .jmp _
  | .jnz _ | .jz _ | .jnc _ | .jc _ | .jpo _ | .jpe _ | .jp _ | .jm _ | .pchl | .nop | .hlt | .di | .ei | .rim
  | .sim | .inPort _ | .outPort _ | .mov _ _ | .movFromM _ | .movToM _ | .mvi _ _ | .mviM _ | .lda _ | .sta _
  | .lhld _ | .shld _ | .ldax _ | .stax _ | .xchg | .xthl | .undefinedOp _ => false

/-- The addresses an instruction stores to: the column "W" of 20_memory.md R55. -/
def storedAt (i : Instr) (s : State) : List Addr :=
  match i with
  | .movToM _ | .mviM _ | .inrM | .dcrM => [s.hl]
  | .sta addr => [addr]
  | .stax ip => [s.indexAddr ip]
  | .shld addr => [addr, addr + 1]
  | .push _ | .pushPsw | .call _ | .rst _ => [s.sp - 1, s.sp - 2]
  | .cnz _ | .cz _ | .cnc _ | .cc _ | .cpo _ | .cpe _ | .cp _ | .cm _ =>
    if takenIn i s then [s.sp - 1, s.sp - 2] else []
  | .xthl => [s.sp + 1, s.sp]
  | .add _ | .addM | .adi _ | .adc _ | .adcM | .aci _ | .sub _ | .subM | .sui _ | .sbb _ | .sbbM | .sbi _
  | .inr _ | .dcr _ | .inx _ | .dcx _ | .dad _ | .daa | .ana _ | .anaM | .ani _ | .xra _ | .xraM | .xri _
  | .ora _ | .oraM | .ori _ | .cmp _ | .cmpM | .cpi _ | .cma | .cmc | .stc | .rlc | .rrc | .ral | .rar | .jmp _
  | .jnz _ | .jz _ | .jnc _ | .jc _ | .jpo _ | .jpe _ | .jp _ | .jm _ | .ret | .rnz | .rz | .rnc | .rc | .rpo
  | .rpe | .rp | .rm | .pchl | .nop | .hlt | .di | .ei | .rim | .sim | .inPort _ | .outPort _ | .mov _ _
  | .movFromM _ | .mvi _ _ | .lxi _ _ | .lda _ | .lhld _ | .ldax _ | .xchg | .pop _ | .popPsw | .sphl
  | .undefinedOp _ => []

/-- The T states of an instruction, taken or not (70_reset_and_hazards.md R332). -/
def tStatesOf (i : Instr) (taken : Bool) : Nat :=
  match i with
  | .mov _ _ | .add _ | .adc _ | .sub _ | .sbb _ => 4
  | .ana _ | .xra _ | .ora _ | .cmp _ | .inr _ | .dcr _ => 4
  | .daa | .cma | .cmc | .stc | .rlc | .rrc | .ral | .rar => 4
  | .xchg | .nop | .di | .ei | .rim | .sim => 4
  | .hlt => 5
  | .inx _ | .dcx _ | .pchl | .sphl => 6
  | .movFromM _ | .movToM _ | .mvi _ _ => 7
  | .addM | .adcM | .subM | .sbbM | .anaM | .xraM | .oraM | .cmpM => 7
  | .adi _ | .aci _ | .sui _ | .sbi _ | .ani _ | .xri _ | .ori _ | .cpi _ => 7
  | .ldax _ | .stax _ => 7
  | .mviM _ | .inrM | .dcrM | .lxi _ _ | .dad _ | .jmp _ | .ret => 10
  | .pop _ | .popPsw | .inPort _ | .outPort _ => 10
  | .push _ | .pushPsw | .rst _ => 12
  | .lda _ | .sta _ => 13
  | .lhld _ | .shld _ | .xthl => 16
  | .call _ => 18
  | .jnz _ | .jz _ | .jnc _ | .jc _
  | .jpo _ | .jpe _ | .jp _ | .jm _ => if taken then 10 else 7
  | .cnz _ | .cz _ | .cnc _ | .cc _
  | .cpo _ | .cpe _ | .cp _ | .cm _ => if taken then 18 else 9
  | .rnz | .rz | .rnc | .rc
  | .rpo | .rpe | .rp | .rm => if taken then 12 else 6
  | .undefinedOp _ => 0

/-! ### The environment -/

/-- An input with no request and no reset (R283). No request means that a RIM too finds the RST 6.5 and RST 5.5 inputs
low (R215, D13 of 92_eei_decisions.md); SID is not restricted. -/
def EnvInput.quiet (e : EnvInput) : Bool :=
  !e.trap && !e.e75 && !e.l65 && !e.l55 && !e.rim65 && !e.rim55 && !e.intr && !e.reset

/-- The premise `NoInterrupts` (R283, D12) from this state on, with no reset. -/
def State.noInterrupts (s : State) : Bool := s.env.all EnvInput.quiet

/-- A request latched in R75 that the next sampling point would take (R295). -/
def State.takeable75 (s : State) : Bool := s.inte && !s.eiInhibit && s.r75 && !s.m75

/-! ### Runs -/

/-- `t` is reached from `s` by some number of steps. -/
inductive Reaches : State → State → Prop where
  | here (s : State) : Reaches s s
  | step {s t u : State} (first : step s = .next t) (rest : Reaches t u) : Reaches s u

/-- The normal end of a run (R312 (a)): the machine is halted and no interrupt can be taken any more. -/
def State.finished (s : State) : Bool := s.halted && s.noInterrupts && !s.takeable75

/-- A safe run never meets the model's fault (R281) or an INTR instruction outside the model (R301): every state it
reaches has a next state. -/
def RunsSafely (s : State) : Prop := ∀ t, Reaches s t → ∃ u, Machine.step t = .next u

/-- What every step keeps: memory has its canonical form; eiInhibit is set only with INTE set and the machine running
(R41, R214); and no interrupt latched in R75 that could be taken is left over by a sampling point (R295). -/
def State.Inv (s : State) : Prop :=
  Memory.wf s.mem = true ∧
  (s.eiInhibit = true → s.inte = true ∧ s.halted = false) ∧
  s.takeable75 = false

end Sys2Proof.Machine
end

