-- ==== Sys2Proof/Certificates/Slice0/Obligations.lean ====
section
/-! DEFINITION. The statements for the provers, from the numbered rules of spec/. First the terms they share: what it
means that some bytes are an instruction that runs to a state, and the states the shapes of instruction end in, written
out as records so that everything not named is unchanged. -/

namespace Sys2Proof.Claims

open Sys2Proof.Machine

/-- The bytes are the instruction, all of them, and from `s` it answers the next state `t`: the rule's encoding, that
no exception arises, and its whole effect. -/
def Runs (i : Instr) (bytes : List Byte) (s t : State) : Prop :=
  decode bytes = .ok (i, []) ∧ exec i s = .next t

/-- `s` after reads have left it as `after`, with A and the flags replaced, pc moved on and T states counted. -/
def accResult (s after : State) (res : Byte × Flags) (len : Addr) (t : Nat) : State :=
  { after with
    regs := { s.regs with a := res.1 }, flags := res.2
    pc := s.pc + len, eiInhibit := false, tstates := s.tstates + t }

/-- The same with the flags alone replaced. -/
def flagResult (s after : State) (f : Flags) (len : Addr) (t : Nat) : State :=
  { after with flags := f, pc := s.pc + len, eiInhibit := false, tstates := s.tstates + t }

/-- `after` at the next sequential instruction of `s`. -/
def seqResult (s after : State) (len : Addr) (t : Nat) : State :=
  { after with pc := s.pc + len, eiInhibit := false, tstates := s.tstates + t }

/-- `after` at the given address. -/
def jumpResult (s after : State) (target : Addr) (t : Nat) : State :=
  { after with pc := target, eiInhibit := false, tstates := s.tstates + t }

/-- One of two states, by a condition. -/
def choose (taken : Bool) (yes no : State) : State := if taken then yes else no

/-- S, Z and P of a result, with the given AC and CY; P counts the 1 bits of the result (10_state.md R29). -/
def resultFlags (res : Byte) (ac cy : Bool) : Flags :=
  { s := res.getLsbD 7
    z := decide (res = 0)
    ac := ac
    p := decide (((List.range 8).filter (fun k => res.getLsbD k)).length % 2 = 0)
    cy := cy }

/-- The decimal adjustment in the two steps in which 40_arithmetic.md R124 tells it a second time: first 06H for the
low nibble, then 60H for the high nibble as it is after the first step. -/
def daaTwoSteps (a : Byte) (f : Flags) : Byte × Flags :=
  let low := decide (a.toNat % 16 > 9) || f.ac
  let a1 : Byte := if low then a + 6 else a
  let ac := low && decide (a.toNat % 16 + 6 > 15)
  let carried := low && decide (a.toNat + 6 > 255)
  let high := decide (a1.toNat / 16 > 9) || f.cy || carried
  let a2 : Byte := if high then a1 + 0x60 else a1
  (a2, resultFlags a2 ac (f.cy || high))

/-- The packed-BCD byte of a number below 100. -/
def bcd (n : Nat) : Byte := BitVec.ofNat 8 (n / 10 * 16 + n % 10)

/-- Bytes 2 and 3 of a three-byte instruction: the operand's low half, then its high half (30_encoding.md R71). -/
def operand16 (v : Addr) : List Byte := [v.setWidth 8, (v >>> 8).setWidth 8]

/-- The 16-bit registers hold two general registers each, the first in bits 15 to 8, or are SP; writing one writes both
halves, nothing else of the state, and no other of the four (10_state.md R23). -/
def PairsAreViews (s : State) : Prop :=
  s.pair .bc = s.regs.b ++ s.regs.c ∧ s.pair .de = s.regs.d ++ s.regs.e ∧
  s.pair .hl = s.regs.h ++ s.regs.l ∧ s.pair .sp = s.sp ∧ s.hl = s.regs.h ++ s.regs.l ∧
  ∀ v : Addr,
    s.setPair .bc v = { s with regs := { s.regs with b := v.extractLsb' 8 8, c := v.extractLsb' 0 8 } } ∧
    s.setPair .de v = { s with regs := { s.regs with d := v.extractLsb' 8 8, e := v.extractLsb' 0 8 } } ∧
    s.setPair .hl v = { s with regs := { s.regs with h := v.extractLsb' 8 8, l := v.extractLsb' 0 8 } } ∧
    s.setPair .sp v = { s with sp := v } ∧
    ∀ rp rp' : RegPair, (s.setPair rp v).pair rp' = if rp' = rp then v else s.pair rp'

/-- The address lies in the range, both ends included. -/
def inRegion (r : Region) (a : Addr) : Prop := r.first ≤ a.toNat ∧ a.toNat ≤ r.last

/-- The state at the end of a sampling point that takes nothing: its input is used up, and its RST 7.5 edge, if there
was one, latched (60_exceptions.md R295). -/
def nothingTaken (s : State) : State := { s with env := s.env.tail, r75 := s.r75 || s.input.e75 }

/-- The request of a source is present in the current input, or latched, and not masked, and where it is taken to
(60_exceptions.md R284, R295, R300, R301). -/
def RequestedAt (s : State) : IntSource → Addr → Prop
  | .trap, target => s.input.trap = true ∧ target = 0x0024
  | .rst75, target => (s.r75 = true ∨ s.input.e75 = true) ∧ s.m75 = false ∧ target = 0x003C
  | .rst65, target => s.input.l65 = true ∧ s.m65 = false ∧ target = 0x0034
  | .rst55, target => s.input.l55 = true ∧ s.m55 = false ∧ target = 0x002C
  | .intr, target =>
    s.input.intr = true ∧ intrTarget s.input.intrOp s.input.intrLo s.input.intrHi = some target

/-- The address is memory the processor reads and writes. -/
def isRam (s : State) (a : Addr) : Prop := s.kindAt a = .ram

/-- The two stack bytes a push from `s` writes are RAM. -/
def stackIsRam (s : State) : Prop := isRam s (s.sp - 1) ∧ isRam s (s.sp - 2)

end Sys2Proof.Claims

open Sys2Proof Sys2Proof.Machine Sys2Proof.Claims

/-! ### Encoding -/

/-- Decoding the bytes of a well-formed instruction, whatever follows them, gives the instruction and what follows. -/
def Obligations.DecodeOfEncodeIsTheInstruction : Prop :=
  ∀ (i : Instr) (rest : List Byte), i.WellFormed = true → decode (encode i ++ rest) = .ok (i, rest)

/-- Bytes that decode are the encoding of what they decode to, which is well formed: no bit of an instruction is
dropped, and no instruction has two encodings (R87). -/
def Obligations.EncodeOfDecodeIsTheBytes : Prop :=
  ∀ (bytes rest : List Byte) (i : Instr), decode bytes = .ok (i, rest) →
    encode i ++ rest = bytes ∧ i.WellFormed = true

/-- The op code alone fixes the length, 202 op codes of the defined 246 are one byte long, 18 two, 26 three; exactly
the ten op codes of R80 are undefined, and each decodes to its own undefined instruction. -/
def Obligations.OpcodeAloneFixesLengthAndDefinedness : Prop :=
  (∀ op b2 b3 : Byte, (decodeBytes op b2 b3).length = opLength op) ∧
  (∀ op b2 b3 : Byte, op ∈ [0x08, 0x10, 0x18, 0x28, 0x38, 0xCB, 0xD9, 0xDD, 0xED, 0xFD] →
    decodeBytes op b2 b3 = .undefinedOp op) ∧
  (∀ op b2 b3 v : Byte, op ∉ [0x08, 0x10, 0x18, 0x28, 0x38, 0xCB, 0xD9, 0xDD, 0xED, 0xFD] →
    decodeBytes op b2 b3 ≠ .undefinedOp v) ∧
  ((List.range 256).filter (fun n => opLength (BitVec.ofNat 8 n) = 1)).length = 202 + 10 ∧
  ((List.range 256).filter (fun n => opLength (BitVec.ofNat 8 n) = 2)).length = 18 ∧
  ((List.range 256).filter (fun n => opLength (BitVec.ofNat 8 n) = 3)).length = 26

/-- Instructions written out from the encoding tables: the examples of R74 and R82, HLT in the place of MOV M,M, every
value of a register field (R72) and of each pair, condition and restart field (R73). -/
def Obligations.WordsOfTheSpecDecode : Prop :=
  decode [0xC3, 0x34, 0x12] = .ok (.jmp 0x1234, []) ∧
  decode [0x21, 0x00, 0x80] = .ok (.lxi .hl 0x8000, []) ∧
  decode [0x3E, 0xFF] = .ok (.mvi .a 0xFF, []) ∧
  decode [0x21, 0x76, 0x00] = .ok (.lxi .hl 0x0076, []) ∧
  decode [0x76, 0x00] = .ok (.hlt, [0x00]) ∧
  decode [0x41] = .ok (.mov .b .c, []) ∧
  decode [0x9E] = .ok (.sbbM, []) ∧
  decode [0xF1] = .ok (.popPsw, []) ∧
  decode [0xDF] = .ok (.rst 3, []) ∧
  decode [0x12] = .ok (.stax .de, []) ∧
  decode [0xDB, 0x10] = .ok (.inPort 0x10, []) ∧
  [0x80, 0x81, 0x82, 0x83, 0x84, 0x85, 0x86, 0x87].map (fun op => decode [op]) =
    [.ok (.add .b, []), .ok (.add .c, []), .ok (.add .d, []), .ok (.add .e, []), .ok (.add .h, []),
     .ok (.add .l, []), .ok (.addM, []), .ok (.add .a, [])] ∧
  [0x04, 0x0C, 0x14, 0x1C, 0x24, 0x2C, 0x34, 0x3C].map (fun op => decode [op]) =
    [.ok (.inr .b, []), .ok (.inr .c, []), .ok (.inr .d, []), .ok (.inr .e, []), .ok (.inr .h, []),
     .ok (.inr .l, []), .ok (.inrM, []), .ok (.inr .a, [])] ∧
  [0x03, 0x13, 0x23, 0x33].map (fun op => decode [op]) =
    [.ok (.inx .bc, []), .ok (.inx .de, []), .ok (.inx .hl, []), .ok (.inx .sp, [])] ∧
  [0xC5, 0xD5, 0xE5, 0xF5].map (fun op => decode [op]) =
    [.ok (.push .bc, []), .ok (.push .de, []), .ok (.push .hl, []), .ok (.pushPsw, [])] ∧
  [0xC0, 0xC8, 0xD0, 0xD8, 0xE0, 0xE8, 0xF0, 0xF8].map (fun op => decode [op]) =
    [.ok (.rnz, []), .ok (.rz, []), .ok (.rnc, []), .ok (.rc, []), .ok (.rpo, []), .ok (.rpe, []),
     .ok (.rp, []), .ok (.rm, [])] ∧
  [0xC7, 0xCF, 0xD7, 0xDF, 0xE7, 0xEF, 0xF7, 0xFF].map (fun op => decode [op]) =
    [.ok (.rst 0, []), .ok (.rst 1, []), .ok (.rst 2, []), .ok (.rst 3, []), .ok (.rst 4, []),
     .ok (.rst 5, []), .ok (.rst 6, []), .ok (.rst 7, [])]

/-! ### Flags -/

/-- `szp(v)` writes S, Z and P from `v` and nothing else (R29). -/
def Obligations.SzpWritesSignZeroParity : Prop :=
  (∀ (f : Flags) (v : Byte), f.szp v = resultFlags v f.ac f.cy) ∧
  (∀ f : Flags, f.szp 0x00 = { f with s := false, z := true, p := true } ∧
    f.szp 0x80 = { f with s := true, z := false, p := false } ∧
    f.szp 0xFF = { f with s := true, z := false, p := true } ∧
    f.szp 0x01 = { f with s := false, z := false, p := false })

/-- `add8` is the 9-bit sum: the result its low 8 bits, CY its bit 8, AC the carry out of bit 3, S Z P from the
result (R30). -/
def Obligations.Add8IsTheNineBitSum : Prop :=
  ∀ (a b : Byte) (c : Bool),
    let sum9 : BitVec 9 := a.setWidth 9 + b.setWidth 9 + (BitVec.ofBool c).setWidth 9
    add8 a b c =
      (sum9.extractLsb' 0 8,
       resultFlags (sum9.extractLsb' 0 8)
         (decide ((a.extractLsb' 0 4).toNat + (b.extractLsb' 0 4).toNat + c.toNat > 15)) (sum9.getLsbD 8))

/-- `sub8` is `a - b - c`; CY is the borrow; AC is the carry out of bit 3 of the addition of the complement, not
inverted; and a byte minus itself sets AC (R31). -/
def Obligations.Sub8IsTheDifferenceWithBorrow : Prop :=
  (∀ (a b : Byte) (c : Bool),
    let nb : Byte := b ^^^ 0xFF
    let sum9 : BitVec 9 := a.setWidth 9 + nb.setWidth 9 + (BitVec.ofBool (!c)).setWidth 9
    sub8 a b c =
      (a - b - (BitVec.ofBool c).setWidth 8,
       resultFlags (a - b - (BitVec.ofBool c).setWidth 8)
         (decide ((a.extractLsb' 0 4).toNat + (nb.extractLsb' 0 4).toNat + (!c).toNat > 15))
         (decide (a.toNat < b.toNat + c.toNat))) ∧
    sum9.extractLsb' 0 8 = a - b - (BitVec.ofBool c).setWidth 8 ∧
    sum9.getLsbD 8 = !decide (a.toNat < b.toNat + c.toNat)) ∧
  (∀ x : Byte, sub8 x x false =
    (0, { s := false, z := true, ac := true, p := true, cy := false }))

/-- The flag byte holds S Z AC P CY in bits 7 6 4 2 0; writing it back restores the flags, whatever bits 5 3 1 are. -/
def Obligations.FlagByteHoldsTheFlags : Prop :=
  (∀ (f : Flags) (u : BitVec 3),
    (f.toByte u).getLsbD 7 = f.s ∧ (f.toByte u).getLsbD 6 = f.z ∧ (f.toByte u).getLsbD 4 = f.ac ∧
    (f.toByte u).getLsbD 2 = f.p ∧ (f.toByte u).getLsbD 0 = f.cy ∧ Flags.ofByte (f.toByte u) = f) ∧
  (∀ v : Byte, ∃ u : BitVec 3, (Flags.ofByte v).toByte u = v)

/-- DAA after an addition with carry of two packed-BCD bytes gives the packed-BCD sum, and CY says that it reached
100. -/
def Obligations.DaaCorrectsPackedDecimalSums : Prop :=
  ∀ (x y : Nat) (c : Bool), x < 100 → y < 100 →
    let sum := add8 (bcd x) (bcd y) c
    (daa8 sum.1 sum.2).1 = bcd ((x + y + c.toNat) % 100) ∧
    (daa8 sum.1 sum.2).2.cy = decide (x + y + c.toNat ≥ 100)

/-! ### Arithmetic instructions -/

/-- ADD, ADI, ADC and ACI in every form (R101 to R106). -/
def Obligations.AdditionsPutTheSumAndItsFlags : Prop :=
  ∀ s : State,
    (∀ r : Reg, Runs (.add r) [0x80 + r.code.setWidth 8] s
      (accResult s s (add8 s.regs.a (s.reg r) false) 1 4)) ∧
    Runs .addM [0x86] s
      (accResult s (s.load s.hl).2 (add8 s.regs.a (s.load s.hl).1 false) 1 7) ∧
    (∀ data : Byte, Runs (.adi data) [0xC6, data] s
      (accResult s s (add8 s.regs.a data false) 2 7)) ∧
    (∀ r : Reg, Runs (.adc r) [0x88 + r.code.setWidth 8] s
      (accResult s s (add8 s.regs.a (s.reg r) s.flags.cy) 1 4)) ∧
    Runs .adcM [0x8E] s
      (accResult s (s.load s.hl).2 (add8 s.regs.a (s.load s.hl).1 s.flags.cy) 1 7) ∧
    (∀ data : Byte, Runs (.aci data) [0xCE, data] s
      (accResult s s (add8 s.regs.a data s.flags.cy) 2 7))

/-- SUB, SUI, SBB and SBI in every form (R107 to R112). -/
def Obligations.SubtractionsPutTheDifferenceAndItsFlags : Prop :=
  ∀ s : State,
    (∀ r : Reg, Runs (.sub r) [0x90 + r.code.setWidth 8] s
      (accResult s s (sub8 s.regs.a (s.reg r) false) 1 4)) ∧
    Runs .subM [0x96] s
      (accResult s (s.load s.hl).2 (sub8 s.regs.a (s.load s.hl).1 false) 1 7) ∧
    (∀ data : Byte, Runs (.sui data) [0xD6, data] s
      (accResult s s (sub8 s.regs.a data false) 2 7)) ∧
    (∀ r : Reg, Runs (.sbb r) [0x98 + r.code.setWidth 8] s
      (accResult s s (sub8 s.regs.a (s.reg r) s.flags.cy) 1 4)) ∧
    Runs .sbbM [0x9E] s
      (accResult s (s.load s.hl).2 (sub8 s.regs.a (s.load s.hl).1 s.flags.cy) 1 7) ∧
    (∀ data : Byte, Runs (.sbi data) [0xDE, data] s
      (accResult s s (sub8 s.regs.a data s.flags.cy) 2 7))

/-- INR and DCR of a register or of the byte at HL: CY is kept, AC is the carry out of bit 3 (R116 to R119). -/
def Obligations.IncrementsAndDecrementsKeepCarry : Prop :=
  ∀ s : State,
    (∀ r : Reg, Runs (.inr r) [0x04 + 8 * r.code.setWidth 8] s
      (flagResult s { s with regs := s.regs.set r (s.reg r + 1) }
        (resultFlags (s.reg r + 1) (decide ((s.reg r).extractLsb' 0 4 = 0xF)) s.flags.cy) 1 4)) ∧
    (∀ r : Reg, Runs (.dcr r) [0x05 + 8 * r.code.setWidth 8] s
      (flagResult s { s with regs := s.regs.set r (s.reg r - 1) }
        (resultFlags (s.reg r - 1) (decide ((s.reg r).extractLsb' 0 4 ≠ 0x0)) s.flags.cy) 1 4)) ∧
    (let v := (s.load s.hl).1
     Runs .inrM [0x34] s
      (flagResult s ((s.load s.hl).2.store s.hl (v + 1))
        (resultFlags (v + 1) (decide (v.extractLsb' 0 4 = 0xF)) s.flags.cy) 1 10) ∧
     Runs .dcrM [0x35] s
      (flagResult s ((s.load s.hl).2.store s.hl (v - 1))
        (resultFlags (v - 1) (decide (v.extractLsb' 0 4 ≠ 0x0)) s.flags.cy) 1 10))

/-- INX and DCX count a pair or SP modulo 65536 and write no flag (R120, R121); and what reading and writing one of the
four 16-bit registers is (R23). -/
def Obligations.PairCountsWriteNoFlag : Prop :=
  ∀ s : State, PairsAreViews s ∧ ∀ rp : RegPair,
    Runs (.inx rp) [0x03 + 16 * rp.code.setWidth 8] s (seqResult s (s.setPair rp (s.pair rp + 1)) 1 6) ∧
    Runs (.dcx rp) [0x0B + 16 * rp.code.setWidth 8] s (seqResult s (s.setPair rp (s.pair rp - 1)) 1 6)

/-- DAD adds BC, DE, HL or SP to HL modulo 65536; CY is bit 16 of the 17-bit sum, the other flags are kept (R122); and
what reading one of the four is (R23). -/
def Obligations.DadAddsToHlAndSetsCarryOnly : Prop :=
  ∀ s : State, PairsAreViews s ∧ ∀ rp : RegPair,
    let sum17 : BitVec 17 := (s.regs.h ++ s.regs.l).setWidth 17 + (s.pair rp).setWidth 17
    Runs (.dad rp) [0x09 + 16 * rp.code.setWidth 8] s
      (seqResult s
        { s with
          regs := { s.regs with h := sum17.extractLsb' 8 8, l := sum17.extractLsb' 0 8 }
          flags := { s.flags with cy := sum17.getLsbD 16 } } 1 10)

/-- DAA puts the decimal-adjusted A and its five flags, by the second form of R124; and for every A and every flags the
first form gives the same (R124). -/
def Obligations.DaaAdjustsTheAccumulator : Prop :=
  (∀ s : State, Runs .daa [0x27] s (accResult s s (daaTwoSteps s.regs.a s.flags) 1 4)) ∧
  (∀ (a : Byte) (f : Flags), daa8 a f = daaTwoSteps a f)

/-! ### Logical instructions -/

/-- ANA, ANI, XRA, XRI, ORA and ORI in every form: CY is cleared, AC is set by AND and cleared by the others
(R140 to R149). -/
def Obligations.BitwiseInstructionsPutResultAndFlags : Prop :=
  ∀ s : State,
    let a := s.regs.a
    let m := s.load s.hl
    (∀ r : Reg, Runs (.ana r) [0xA0 + r.code.setWidth 8] s
      (accResult s s (a &&& s.reg r, resultFlags (a &&& s.reg r) true false) 1 4)) ∧
    Runs .anaM [0xA6] s (accResult s m.2 (a &&& m.1, resultFlags (a &&& m.1) true false) 1 7) ∧
    (∀ data : Byte, Runs (.ani data) [0xE6, data] s
      (accResult s s (a &&& data, resultFlags (a &&& data) true false) 2 7)) ∧
    (∀ r : Reg, Runs (.xra r) [0xA8 + r.code.setWidth 8] s
      (accResult s s (a ^^^ s.reg r, resultFlags (a ^^^ s.reg r) false false) 1 4)) ∧
    Runs .xraM [0xAE] s (accResult s m.2 (a ^^^ m.1, resultFlags (a ^^^ m.1) false false) 1 7) ∧
    (∀ data : Byte, Runs (.xri data) [0xEE, data] s
      (accResult s s (a ^^^ data, resultFlags (a ^^^ data) false false) 2 7)) ∧
    (∀ r : Reg, Runs (.ora r) [0xB0 + r.code.setWidth 8] s
      (accResult s s (a ||| s.reg r, resultFlags (a ||| s.reg r) false false) 1 4)) ∧
    Runs .oraM [0xB6] s (accResult s m.2 (a ||| m.1, resultFlags (a ||| m.1) false false) 1 7) ∧
    (∀ data : Byte, Runs (.ori data) [0xF6, data] s
      (accResult s s (a ||| data, resultFlags (a ||| data) false false) 2 7))

/-- CMP and CPI write the flags of the subtraction and drop its result; Z says equal, CY says A is the smaller
unsigned number (R150 to R152). -/
def Obligations.ComparesWriteFlagsOnly : Prop :=
  ∀ s : State,
    let a := s.regs.a
    let m := s.load s.hl
    (∀ r : Reg, Runs (.cmp r) [0xB8 + r.code.setWidth 8] s
      (flagResult s s (sub8 a (s.reg r) false).2 1 4)) ∧
    Runs .cmpM [0xBE] s (flagResult s m.2 (sub8 a m.1 false).2 1 7) ∧
    (∀ data : Byte, Runs (.cpi data) [0xFE, data] s (flagResult s s (sub8 a data false).2 2 7)) ∧
    (∀ v : Byte, (sub8 a v false).2.z = decide (a = v) ∧ (sub8 a v false).2.cy = decide (a.toNat < v.toNat) ∧
      (sub8 a v false).2.s = (a - v).getLsbD 7)

/-- CMA complements A and no flag; CMC complements CY; STC sets CY (R153 to R155). -/
def Obligations.ComplementsAndSetCarry : Prop :=
  ∀ s : State,
    Runs .cma [0x2F] s (accResult s s (~~~ s.regs.a, s.flags) 1 4) ∧
    Runs .cmc [0x3F] s (flagResult s s { s.flags with cy := !s.flags.cy } 1 4) ∧
    Runs .stc [0x37] s (flagResult s s { s.flags with cy := true } 1 4)

/-- The four rotates write A and CY only: RLC and RRC rotate the 8 bits of A, RAL and RAR the 9 bits of CY and A
(R156 to R159). -/
def Obligations.RotatesWriteAccumulatorAndCarry : Prop :=
  ∀ s : State,
    let a := s.regs.a
    let cy : Byte := if s.flags.cy then 1 else 0
    Runs .rlc [0x07] s (accResult s s (a <<< 1 ||| a >>> 7, { s.flags with cy := a.getLsbD 7 }) 1 4) ∧
    Runs .rrc [0x0F] s (accResult s s (a >>> 1 ||| a <<< 7, { s.flags with cy := a.getLsbD 0 }) 1 4) ∧
    Runs .ral [0x17] s (accResult s s (a <<< 1 ||| cy, { s.flags with cy := a.getLsbD 7 }) 1 4) ∧
    Runs .rar [0x1F] s (accResult s s (a >>> 1 ||| cy <<< 7, { s.flags with cy := a.getLsbD 0 }) 1 4)

/-! ### Branch instructions -/

/-- JMP and the eight conditional jumps change pc only; each tests its flag (R171 to R179). -/
def Obligations.JumpsGoWhereTheirConditionSays : Prop :=
  ∀ (s : State) (addr : Addr),
    let yes := jumpResult s s addr 10
    let no := seqResult s s 3 7
    Runs (.jmp addr) (0xC3 :: operand16 addr) s yes ∧
    Runs (.jnz addr) (0xC2 :: operand16 addr) s (choose (!s.flags.z) yes no) ∧
    Runs (.jz addr) (0xCA :: operand16 addr) s (choose s.flags.z yes no) ∧
    Runs (.jnc addr) (0xD2 :: operand16 addr) s (choose (!s.flags.cy) yes no) ∧
    Runs (.jc addr) (0xDA :: operand16 addr) s (choose s.flags.cy yes no) ∧
    Runs (.jpo addr) (0xE2 :: operand16 addr) s (choose (!s.flags.p) yes no) ∧
    Runs (.jpe addr) (0xEA :: operand16 addr) s (choose s.flags.p yes no) ∧
    Runs (.jp addr) (0xF2 :: operand16 addr) s (choose (!s.flags.s) yes no) ∧
    Runs (.jm addr) (0xFA :: operand16 addr) s (choose s.flags.s yes no)

/-- CALL and the eight conditional calls push pc + 3 and go to the address; not taken, only pc moves
(R180 to R188). -/
def Obligations.CallsPushTheReturnAddress : Prop :=
  ∀ (s : State) (addr : Addr),
    let yes := jumpResult s (s.push16 (s.pc + 3)) addr 18
    let no := seqResult s s 3 9
    Runs (.call addr) (0xCD :: operand16 addr) s yes ∧
    Runs (.cnz addr) (0xC4 :: operand16 addr) s (choose (!s.flags.z) yes no) ∧
    Runs (.cz addr) (0xCC :: operand16 addr) s (choose s.flags.z yes no) ∧
    Runs (.cnc addr) (0xD4 :: operand16 addr) s (choose (!s.flags.cy) yes no) ∧
    Runs (.cc addr) (0xDC :: operand16 addr) s (choose s.flags.cy yes no) ∧
    Runs (.cpo addr) (0xE4 :: operand16 addr) s (choose (!s.flags.p) yes no) ∧
    Runs (.cpe addr) (0xEC :: operand16 addr) s (choose s.flags.p yes no) ∧
    Runs (.cp addr) (0xF4 :: operand16 addr) s (choose (!s.flags.s) yes no) ∧
    Runs (.cm addr) (0xFC :: operand16 addr) s (choose s.flags.s yes no)

/-- RET and the eight conditional returns pop pc; not taken, only pc moves (R189 to R197). -/
def Obligations.ReturnsPopTheProgramCounter : Prop :=
  ∀ s : State,
    let yes := jumpResult s s.pop16.2 s.pop16.1 12
    let no := seqResult s s 1 6
    Runs .ret [0xC9] s (jumpResult s s.pop16.2 s.pop16.1 10) ∧
    Runs .rnz [0xC0] s (choose (!s.flags.z) yes no) ∧
    Runs .rz [0xC8] s (choose s.flags.z yes no) ∧
    Runs .rnc [0xD0] s (choose (!s.flags.cy) yes no) ∧
    Runs .rc [0xD8] s (choose s.flags.cy yes no) ∧
    Runs .rpo [0xE0] s (choose (!s.flags.p) yes no) ∧
    Runs .rpe [0xE8] s (choose s.flags.p yes no) ∧
    Runs .rp [0xF0] s (choose (!s.flags.s) yes no) ∧
    Runs .rm [0xF8] s (choose s.flags.s yes no)

/-- RST n pushes pc + 1 and goes to 8*n; PCHL goes to HL (R198, R199). -/
def Obligations.RestartAndPchl : Prop :=
  ∀ s : State,
    (∀ n : BitVec 3, Runs (.rst n) [0xC7 + 8 * n.setWidth 8] s
      (jumpResult s (s.push16 (s.pc + 1)) (BitVec.ofNat 16 (8 * n.toNat)) 12)) ∧
    Runs .pchl [0xE9] s (jumpResult s s s.hl 6)

/-! ### Machine control and input/output -/

/-- NOP changes pc only; HLT also sets halted; DI clears INTE; EI sets INTE and eiInhibit (R211 to R214, R41). -/
def Obligations.ControlInstructionsWriteTheirFlipFlop : Prop :=
  ∀ s : State,
    Runs .nop [0x00] s (seqResult s s 1 4) ∧
    Runs .hlt [0x76] s (seqResult s { s with halted := true } 1 5) ∧
    Runs .di [0xF3] s (seqResult s { s with inte := false } 1 4) ∧
    Runs .ei [0xFB] s
      { s with pc := s.pc + 1, inte := true, eiInhibit := true, tstates := s.tstates + 4 }

/-- RIM assembles A from the pending bits, the masks and INTE (once after a TRAP, the INTE saved by it, which is then
forgotten), with SID in bit 7: the level of the current input, any level when no input is listed (R34, R42, R215). Under
`NoInterrupts` bits 5 and 4 read 0, whatever SID is (D13).
Model's choice: the pin levels come from the input list of the model (logs 5, 6, 7). -/
def Obligations.RimReadsTheInterruptByte : Prop :=
  ∀ s : State, ∃ (v : Byte) (drawn : Nat),
    Runs .rim [0x20] s
      { s with
        regs := { s.regs with a := v }, trapIE := none, pc := s.pc + 1, eiInhibit := false
        draws := drawn, tstates := s.tstates + 4 } ∧
    (∀ e rest, s.env = e :: rest →
      v.getLsbD 7 = e.sid ∧ v.getLsbD 5 = e.rim65 ∧ v.getLsbD 4 = e.rim55 ∧ drawn = s.draws) ∧
    (s.env = [] → drawn = s.draws + 1) ∧
    (s.noInterrupts = true → v.getLsbD 5 = false ∧ v.getLsbD 4 = false) ∧
    v.getLsbD 6 = s.r75 ∧
    v.getLsbD 3 = (match s.trapIE with | some saved => saved | none => s.inte) ∧
    v.getLsbD 2 = s.m75 ∧ v.getLsbD 1 = s.m65 ∧ v.getLsbD 0 = s.m55

/-- SIM writes the masks when bit 3 of A is set, clears R75 when bit 4 is, writes SOD from bit 7 when bit 6 is, and
nothing else but pc (R35, R216). -/
def Obligations.SimWritesMasksLatchAndSerialOutput : Prop :=
  ∀ s : State,
    let a := s.regs.a
    Runs .sim [0x30] s
      (seqResult s
        { s with
          m55 := bif a.getLsbD 3 then a.getLsbD 0 else s.m55
          m65 := bif a.getLsbD 3 then a.getLsbD 1 else s.m65
          m75 := bif a.getLsbD 3 then a.getLsbD 2 else s.m75
          r75 := s.r75 && !a.getLsbD 4
          sod := bif a.getLsbD 6 then a.getLsbD 7 else s.sod } 1 4)

/-- IN puts the environment's byte in A and in the trace: the next answer supplied, any byte when none is; OUT appends
its event and changes no register (R217, R218).
Model's choice: the environment's answers are a list, and the trace is a field (logs 8, 13). -/
def Obligations.InAndOutExchangeBytesWithPorts : Prop :=
  ∀ (s : State) (port : Byte),
    (∀ v rest, s.answers = v :: rest →
      Runs (.inPort port) [0xDB, port] s
        (accResult s { s with answers := rest, trace := s.trace ++ [.ioRead port v] } (v, s.flags) 2 10)) ∧
    (s.answers = [] → ∃ v : Byte,
      Runs (.inPort port) [0xDB, port] s
        (accResult s { s with draws := s.draws + 1, trace := s.trace ++ [.ioRead port v] } (v, s.flags) 2 10)) ∧
    Runs (.outPort port) [0xD3, port] s
      (seqResult s { s with trace := s.trace ++ [.ioWrite port s.regs.a] } 2 10)

/-- An undefined op code is the model's one fault, with the byte and the address it was fetched from; no state comes
after it (R281).
The fault is the spec's own decision (log 14). -/
def Obligations.UndefinedOpcodeFaults : Prop :=
  (∀ (op : Byte) (s : State), exec (.undefinedOp op) s = .fault (.undefinedOpcode op s.pc)) ∧
  (∀ s : State, s.halted = false → s.input.reset = false → s.isPlain s.pc = true →
    s.peek s.pc ∈ [0x08, 0x10, 0x18, 0x28, 0x38, 0xCB, 0xD9, 0xDD, 0xED, 0xFD] →
    step s = .fault (.undefinedOpcode (s.peek s.pc) s.pc))

/-! ### Data transfer -/

/-- MOV between registers and MVI of a register write the one register (R230, R233). -/
def Obligations.RegisterMovesWriteOneRegister : Prop :=
  ∀ s : State,
    (∀ dst src : Reg, Runs (.mov dst src) [0x40 + 8 * dst.code.setWidth 8 + src.code.setWidth 8] s
      (seqResult s { s with regs := s.regs.set dst (s.reg src) } 1 4)) ∧
    (∀ (r : Reg) (data : Byte), Runs (.mvi r data) [0x06 + 8 * r.code.setWidth 8, data] s
      (seqResult s { s with regs := s.regs.set r data } 2 7)) ∧
    (∀ (r r' : Reg) (v : Byte),
      ({ s with regs := s.regs.set r v } : State).reg r' = if r' = r then v else s.reg r')

/-- MOV r,M loads a register from the byte at HL; MOV M,r and MVI M store to it (R231, R232, R234). -/
def Obligations.MovesWithMemoryUseHl : Prop :=
  ∀ s : State,
    (∀ dst : Reg, Runs (.movFromM dst) [0x46 + 8 * dst.code.setWidth 8] s
      (seqResult s { (s.load s.hl).2 with regs := s.regs.set dst (s.load s.hl).1 } 1 7)) ∧
    (∀ src : Reg, Runs (.movToM src) [0x70 + src.code.setWidth 8] s
      (seqResult s (s.store s.hl (s.reg src)) 1 7)) ∧
    (∀ data : Byte, Runs (.mviM data) [0x36, data] s (seqResult s (s.store s.hl data) 2 10))

/-- LXI loads a pair or SP with the 16-bit operand, XCHG exchanges HL and DE, SPHL copies HL to SP
(R235, R242, R267). -/
def Obligations.PairTransfers : Prop :=
  ∀ s : State,
    (∀ v : Addr,
      Runs (.lxi .bc v) (0x01 :: operand16 v) s
        (seqResult s { s with regs := { s.regs with b := v.extractLsb' 8 8, c := v.extractLsb' 0 8 } } 3 10) ∧
      Runs (.lxi .de v) (0x11 :: operand16 v) s
        (seqResult s { s with regs := { s.regs with d := v.extractLsb' 8 8, e := v.extractLsb' 0 8 } } 3 10) ∧
      Runs (.lxi .hl v) (0x21 :: operand16 v) s
        (seqResult s { s with regs := { s.regs with h := v.extractLsb' 8 8, l := v.extractLsb' 0 8 } } 3 10) ∧
      Runs (.lxi .sp v) (0x31 :: operand16 v) s (seqResult s { s with sp := v } 3 10)) ∧
    Runs .xchg [0xEB] s
      (seqResult s
        { s with regs := { s.regs with h := s.regs.d, l := s.regs.e, d := s.regs.h, e := s.regs.l } } 1 4) ∧
    Runs .sphl [0xF9] s (seqResult s { s with sp := s.regs.h ++ s.regs.l } 1 6)

/-- LDA and LDAX load A from the addressed byte, STA and STAX store A to it (R236, R237, R240, R241). -/
def Obligations.AccumulatorLoadsAndStores : Prop :=
  ∀ s : State,
    (∀ addr : Addr,
      Runs (.lda addr) (0x3A :: operand16 addr) s
        (accResult s (s.load addr).2 ((s.load addr).1, s.flags) 3 13) ∧
      Runs (.sta addr) (0x32 :: operand16 addr) s (seqResult s (s.store addr s.regs.a) 3 13)) ∧
    (let addrBC := s.regs.b ++ s.regs.c
     Runs (.ldax .bc) [0x0A] s (accResult s (s.load addrBC).2 ((s.load addrBC).1, s.flags) 1 7) ∧
     Runs (.stax .bc) [0x02] s (seqResult s (s.store addrBC s.regs.a) 1 7)) ∧
    (let addrDE := s.regs.d ++ s.regs.e
     Runs (.ldax .de) [0x1A] s (accResult s (s.load addrDE).2 ((s.load addrDE).1, s.flags) 1 7) ∧
     Runs (.stax .de) [0x12] s (seqResult s (s.store addrDE s.regs.a) 1 7))

/-- LHLD loads L from the address and then H from the next; SHLD stores L to the address and then H to the next, the
next address modulo 65536 (R238, R239). -/
def Obligations.PairLoadsAndStoresAreLittleEndian : Prop :=
  ∀ (s : State) (addr : Addr),
    (let lo := s.load addr
     let hi := lo.2.load (addr + 1)
     Runs (.lhld addr) (0x2A :: operand16 addr) s
       (seqResult s { hi.2 with regs := { s.regs with l := lo.1, h := hi.1 } } 3 16)) ∧
    Runs (.shld addr) (0x22 :: operand16 addr) s
      (seqResult s ((s.store addr s.regs.l).store (addr + 1) s.regs.h) 3 16)

/-! ### Stack -/

/-- PUSH stores the pair with `push16`, POP loads it with `pop16` (R262, R264). -/
def Obligations.PushAndPopMovePairs : Prop :=
  ∀ s : State,
    Runs (.push .bc) [0xC5] s (seqResult s (s.push16 (s.regs.b ++ s.regs.c)) 1 12) ∧
    Runs (.push .de) [0xD5] s (seqResult s (s.push16 (s.regs.d ++ s.regs.e)) 1 12) ∧
    Runs (.push .hl) [0xE5] s (seqResult s (s.push16 (s.regs.h ++ s.regs.l)) 1 12) ∧
    (let hi : Byte := s.pop16.1.extractLsb' 8 8
     let lo : Byte := s.pop16.1.extractLsb' 0 8
     Runs (.pop .bc) [0xC1] s (seqResult s { s.pop16.2 with regs := { s.regs with b := hi, c := lo } } 1 10) ∧
     Runs (.pop .de) [0xD1] s (seqResult s { s.pop16.2 with regs := { s.regs with d := hi, e := lo } } 1 10) ∧
     Runs (.pop .hl) [0xE1] s (seqResult s { s.pop16.2 with regs := { s.regs with h := hi, l := lo } } 1 10))

/-- PUSH PSW pushes A over a flag byte with S Z AC P CY in bits 7 6 4 2 0, its other bits any value; POP PSW loads the
five flags from the low byte and A from the high one (R263, R265).
Model's choice: a counter of drawn values advances (log 9). -/
def Obligations.PswMovesAccumulatorAndFlags : Prop :=
  ∀ s : State,
    (∃ f : Byte,
      f.getLsbD 7 = s.flags.s ∧ f.getLsbD 6 = s.flags.z ∧ f.getLsbD 4 = s.flags.ac ∧
      f.getLsbD 2 = s.flags.p ∧ f.getLsbD 0 = s.flags.cy ∧
      Runs .pushPsw [0xF5] s
        (seqResult s (({ s with draws := s.draws + 1 } : State).push16 (s.regs.a ++ f)) 1 12)) ∧
    Runs .popPsw [0xF1] s
      (accResult s s.pop16.2
        (s.pop16.1.extractLsb' 8 8,
         { s := s.pop16.1.getLsbD 7, z := s.pop16.1.getLsbD 6, ac := s.pop16.1.getLsbD 4
           p := s.pop16.1.getLsbD 2, cy := s.pop16.1.getLsbD 0 }) 1 10)

/-- XTHL exchanges L with the byte at SP and H with the byte at SP+1: two reads, then two writes; SP is unchanged
(R266). -/
def Obligations.XthlExchangesHlWithTheStackTop : Prop :=
  ∀ s : State,
    let lo := s.load s.sp
    let hi := lo.2.load (s.sp + 1)
    Runs .xthl [0xE3] s
      (seqResult s
        { (hi.2.store (s.sp + 1) s.regs.h).store s.sp s.regs.l with
          regs := { s.regs with h := hi.1, l := lo.1 } } 1 16)

/-! ### Memory and stack operations -/

/-- A read and a write of one byte, by what `MemMap` declares the address to be (R57): an address is of the kind of the
first range that holds it, and RAM where none does.
Model's choice: the memory map, the answers and the trace are lists held in State, an address in no range is RAM, and
of overlapping ranges the first holds (logs 10 to 13). -/
def Obligations.AccessesFollowTheMemoryKind : Prop :=
  (∀ (s : State) (a : Addr),
    (s.kindAt a = .ram ∨ s.kindAt a = .rom → s.load a = (s.peek a, s)) ∧
    (s.kindAt a = .absent → s.load a = s.envByte) ∧
    (s.kindAt a = .device → s.load a =
      (s.envByte.1, { s.envByte.2 with trace := s.trace ++ [.memRead a s.envByte.1] }))) ∧
  (∀ (s : State) (a : Addr) (v : Byte), Memory.wf s.mem = true →
    (s.kindAt a = .ram → (s.store a v).peek a = v ∧ (∀ b, b ≠ a → (s.store a v).peek b = s.peek b) ∧
      s.store a v = { s with mem := (s.store a v).mem }) ∧
    (s.kindAt a = .rom ∨ s.kindAt a = .absent → s.store a v = s) ∧
    (s.kindAt a = .device → s.store a v = { s with trace := s.trace ++ [.memWrite a v] })) ∧
  (∀ s : State, s.memMap = [] → ∀ a : Addr, s.kindAt a = .ram) ∧
  (∀ (s : State) (a : Addr), (∀ r ∈ s.memMap, ¬ inRegion r a) → s.kindAt a = .ram) ∧
  (∀ (s : State) (a : Addr) (before after : List Region) (r : Region), s.memMap = before ++ r :: after →
    (∀ q ∈ before, ¬ inRegion q a) → inRegion r a → s.kindAt a = r.kind)

/-- `push16` puts the high byte at SP-1 and the low byte at SP-2 and lowers SP by 2; `pop16` reads them back from SP
and SP+1 and raises SP by 2: after a push into RAM a pop returns the value and restores SP (R260, R261). -/
def Obligations.PopUndoesPush : Prop :=
  (∀ (s : State) (v : Addr), s.push16 v =
    { (s.store (s.sp - 1) (v.extractLsb' 8 8)).store (s.sp - 2) (v.extractLsb' 0 8) with sp := s.sp - 2 }) ∧
  (∀ s : State,
    let lo := s.load s.sp
    let hi := lo.2.load (s.sp + 1)
    s.pop16 = (hi.1 ++ lo.1, { hi.2 with sp := s.sp + 2 })) ∧
  (∀ (s : State) (v : Addr), Memory.wf s.mem = true → stackIsRam s →
    (s.push16 v).peek (s.sp - 1) = v.extractLsb' 8 8 ∧ (s.push16 v).peek (s.sp - 2) = v.extractLsb' 0 8 ∧
    (s.push16 v).pop16 = (v, { s.push16 v with sp := s.sp }))

/-- PUSH PSW and then POP PSW restores A, all five flags and SP, whatever the three open bits were (R265). -/
def Obligations.PushPswThenPopPswRestores : Prop :=
  ∀ s : State, Memory.wf s.mem = true → stackIsRam s →
    ∃ t u, exec .pushPsw s = .next t ∧ exec .popPsw t = .next u ∧
      u.regs = s.regs ∧ u.flags = s.flags ∧ u.sp = s.sp

/-! ### Step, sampling, interrupts, reset -/

/-- A machine that is neither halted nor reset in this step executes the instruction its bytes at pc decode to, at the
state it is in, and then samples the interrupt requests (R12); each byte may lie in RAM or ROM. For any memory kind,
the step is exec of the fetched instruction at the state the fetch leaves; and the fetch reads as many bytes as the op
code asks for, each once, at pc, pc+1, pc+2 in this order (R55), and decodes them.
Model's choice: reset and requests come from the input list, a reset step does nothing else (logs 5, 16, 26), and a
fetch from an absent or a device address reads as any read there does (log 24). -/
def Obligations.StepRunsTheDecodedInstruction : Prop :=
  (∀ (s : State) (i : Instr) (rest : List Byte),
    s.halted = false → s.input.reset = false →
    (∀ k : Nat, k < i.length → s.isPlain (s.pc + BitVec.ofNat 16 k) = true) →
    decode [s.peek s.pc, s.peek (s.pc + 1), s.peek (s.pc + 2)] = .ok (i, rest) →
    step s = match exec i s with
      | .next u => u.sample
      | .fault f => .fault f
      | .refused r => .refused r) ∧
  (∀ s : State, s.halted = false → s.input.reset = false →
    step s = match exec s.fetch.1 s.fetch.2 with
      | .next u => u.sample
      | .fault f => .fault f
      | .refused r => .refused r) ∧
  (∀ s : State,
    let op := s.load s.pc
    let byte2 := op.2.load (s.pc + 1)
    let byte3 := byte2.2.load (s.pc + 2)
    (opLength op.1 = 1 → decode [op.1] = .ok (s.fetch.1, []) ∧ s.fetch.2 = op.2) ∧
    (opLength op.1 = 2 → decode [op.1, byte2.1] = .ok (s.fetch.1, []) ∧ s.fetch.2 = byte2.2) ∧
    (opLength op.1 = 3 → decode [op.1, byte2.1, byte3.1] = .ok (s.fetch.1, []) ∧ s.fetch.2 = byte3.2))

/-- The sampling point: the RST 7.5 edge is latched first; then TRAP, else, with INTE set and eiInhibit clear, the
highest of RST 7.5, RST 6.5, RST 5.5 that is requested and not masked, else INTR (R294, R295).
Model's choice: the inputs come from a list, one for each sampling (logs 5, 26), and TRAP right after EI is the
spec's decision (log 18). -/
def Obligations.SamplingTakesTheHighestPriority : Prop :=
  ∀ s : State,
    let e := s.input
    let l : State := { s with env := s.env.tail, r75 := s.r75 || e.e75 }
    s.sample =
      if e.trap = true then .next (l.takeInterrupt .trap 0x0024)
      else if s.inte = false ∨ s.eiInhibit = true then .next l
      else if (s.r75 = true ∨ e.e75 = true) ∧ s.m75 = false then .next (l.takeInterrupt .rst75 0x003C)
      else if e.l65 = true ∧ s.m65 = false then .next (l.takeInterrupt .rst65 0x0034)
      else if e.l55 = true ∧ s.m55 = false then .next (l.takeInterrupt .rst55 0x002C)
      else if e.intr = true then
        match intrTarget e.intrOp e.intrLo e.intrHi with
        | some target => .next (l.takeInterrupt .intr target)
        | none => .refused (.intrInstruction e.intrOp)
      else .next l

/-- Taking an interrupt: the halt state and eiInhibit end, a TRAP saves INTE, INTE is cleared, RST 7.5 clears its
latch, pc is pushed, execution goes on at the entry; nothing else changes but the trace, which names the source
(R297).
Model's choice: the acknowledge
stands in the trace before the stack writes (log 13). -/
def Obligations.TakingAnInterruptPushesPcAndDisables : Prop :=
  ∀ (s : State) (source : IntSource) (target : Addr),
    s.takeInterrupt source target =
      { ({ s with
           halted := false, eiInhibit := false, inte := false
           trapIE := (match source with | .trap => some s.inte | _ => s.trapIE)
           r75 := (match source with | .rst75 => false | _ => s.r75)
           trace := s.trace ++ [.acknowledge source] } : State).push16 s.pc with
        pc := target }

/-- The instruction of an INTR acknowledge: RST n goes to 8*n, CALL to its address; with any other op code there is no
target, and a sampling point that takes INTR refuses (R301).
The refusal is the spec's own decision (log 15). -/
def Obligations.IntrAcceptsRestartAndCallOnly : Prop :=
  (∀ (n : BitVec 3) (lo hi : Byte), intrTarget (0xC7 + 8 * n.setWidth 8) lo hi = some (BitVec.ofNat 16 (8 * n.toNat))) ∧
  (∀ lo hi : Byte, intrTarget 0xCD lo hi = some (hi ++ lo)) ∧
  (∀ op lo hi : Byte, op ≠ 0xCD → op &&& 0xC7 ≠ 0xC7 → intrTarget op lo hi = none) ∧
  (∀ s : State, s.input.trap = false → s.inte = true → s.eiInhibit = false →
    s.r75 = false → s.input.e75 = false → s.input.l65 = false → s.input.l55 = false → s.input.intr = true →
    s.input.intrOp ≠ 0xCD → s.input.intrOp &&& 0xC7 ≠ 0xC7 →
    s.sample = .refused (.intrInstruction s.input.intrOp))

/-- EI holds maskable interrupts off at the sampling point after it, and DI at its own and at every later one until an EI
is executed. With no TRAP and no reset, whatever is requested: the step that executes EI or DI ends at the next
instruction with memory unchanged; and with INTE clear, a step of a halted machine, and a step whose instruction is not
EI, takes no interrupt and leaves INTE clear (R213, R214, R325).
Model's choice: the requests come from the input list (log 5). -/
def Obligations.EiAndDiHoldMaskableInterruptsOff : Prop :=
  (∀ s : State, s.halted = false → s.input.reset = false → s.input.trap = false → s.isPlain s.pc = true →
    (s.peek s.pc = 0xFB → ∃ t, step s = .next t ∧ t.pc = s.pc + 1 ∧ t.sp = s.sp ∧ t.mem = s.mem ∧
      t.inte = true ∧ t.eiInhibit = true ∧ t.r75 = (s.r75 || s.input.e75)) ∧
    (s.peek s.pc = 0xF3 → ∃ t, step s = .next t ∧ t.pc = s.pc + 1 ∧ t.sp = s.sp ∧ t.mem = s.mem ∧
      t.inte = false ∧ t.eiInhibit = false ∧ t.r75 = (s.r75 || s.input.e75))) ∧
  (∀ s : State, s.inte = false → s.input.reset = false → s.input.trap = false →
    (s.halted = true → step s = .next (nothingTaken s)) ∧
    (s.halted = false → s.fetch.1 ≠ .ei → ∀ u : State, exec s.fetch.1 s.fetch.2 = .next u →
      step s = .next (nothingTaken u) ∧ u.inte = false ∧ u.input = s.input))

/-- Taking an interrupt into a RAM stack and then executing RET resumes the interrupted program: pc, SP, the general
registers, the flags and the masks are those of before; INTE stays cleared (R298, R302). -/
def Obligations.ReturnResumesTheInterruptedProgram : Prop :=
  ∀ (s : State) (source : IntSource) (target : Addr), Memory.wf s.mem = true → stackIsRam s →
    ∃ u, exec .ret (s.takeInterrupt source target) = .next u ∧
      u.pc = s.pc ∧ u.sp = s.sp ∧ u.regs = s.regs ∧ u.flags = s.flags ∧
      u.m55 = s.m55 ∧ u.m65 = s.m65 ∧ u.m75 = s.m75 ∧ u.inte = false ∧
      (∀ a : Addr, a ≠ s.sp - 1 → a ≠ s.sp - 2 → u.peek a = s.peek a)

/-- A reset applied in a step wins over the instruction, the halt state and every request: pc, INTE, the masks, R75,
SOD, halted, eiInhibit and trapIE take their reset values, memory is unchanged, nothing is pushed. The registers the
spec leaves unspecified are not named here (R320).
Model's choice: a reset in mid-run is a step of its own that keeps the trace (log 16). -/
def Obligations.ResetWinsAndFixesItsState : Prop :=
  ∀ s : State, s.input.reset = true →
    ∃ t, step s = .next t ∧
      t.pc = 0 ∧ t.inte = false ∧ t.m55 = true ∧ t.m65 = true ∧ t.m75 = true ∧ t.r75 = false ∧ t.sod = false ∧
      t.halted = false ∧ t.eiInhibit = false ∧ t.trapIE = none ∧ t.mem = s.mem ∧ t.memMap = s.memMap ∧
      t.trace = s.trace

/-- The values the spec gives the state after reset (R46). -/
def Obligations.ResetStateIsTheSpecs : Prop :=
  State.reset.pc = 0x0000 ∧ State.reset.inte = false ∧
  State.reset.m55 = true ∧ State.reset.m65 = true ∧ State.reset.m75 = true ∧
  State.reset.r75 = false ∧ State.reset.sod = false ∧ State.reset.halted = false ∧
  State.reset.eiInhibit = false ∧ State.reset.trapIE = none

/-! ### Invariants and whole-machine rules -/

/-- The invariant holds after reset. -/
def Obligations.ResetStateMeetsTheInvariant : Prop := State.reset.Inv

/-- Every step keeps the invariant: memory stays canonical, eiInhibit implies INTE and a running machine, and no
latched RST 7.5 that could be taken is left over. And every step keeps `NoInterrupts`, and under it a clear R75, so that
bit 6 of RIM goes on reading 0 too (D13).
The invariant is the model's (log 25), and so is the list of inputs (log 5). -/
def Obligations.EveryStepKeepsTheInvariant : Prop :=
  (∀ s t : State, s.Inv → step s = .next t → t.Inv) ∧
  (∀ s t : State, s.noInterrupts = true → step s = .next t →
    t.noInterrupts = true ∧ (s.r75 = false → t.r75 = false))

/-- Nothing a run does changes the memory map or a byte outside RAM: ROM contents are fixed (R57). -/
def Obligations.RomNeverChangesAlongARun : Prop :=
  ∀ (s t : State) (a : Addr), Reaches s t →
    t.memMap = s.memMap ∧ (s.kindAt a ≠ .ram → t.peek a = s.peek a)

/-- Along a run the trace only grows at its end and the two counters never fall.
All three are the model's own fields (logs 9, 13, 17). -/
def Obligations.TraceOnlyGrowsAlongARun : Prop :=
  ∀ s t : State, Reaches s t → s.trace <+: t.trace ∧ s.tstates ≤ t.tstates ∧ s.draws ≤ t.draws

/-- Every instruction leaves alone every general register but its destination, and SP unless it is one that moves
SP. -/
def Obligations.OnlyDestinationRegistersChange : Prop :=
  ∀ (i : Instr) (s t : State), exec i s = .next t →
    (∀ r : Reg, regWritten i r = false → t.reg r = s.reg r) ∧ (spWritten i s = false → t.sp = s.sp)

/-- Every instruction leaves alone every byte of memory but those it stores to (R55). -/
def Obligations.OnlyTheStoredBytesChange : Prop :=
  ∀ (i : Instr) (s t : State) (a : Addr), exec i s = .next t → a ∉ storedAt i s → t.peek a = s.peek a

/-- Every instruction leaves alone every flag that the table of flag side effects does not list for it (R32). -/
def Obligations.OnlyTheListedFlagsChange : Prop :=
  ∀ (i : Instr) (s t : State) (f : FlagName), exec i s = .next t → flagWritten i f = false →
    t.flags.bit f = s.flags.bit f

/-- Only EI and DI change INTE, only SIM the masks, R75 and SOD, only RIM the saved INTE, only HLT the halt state;
eiInhibit is set after EI and after no other instruction (R33, R37 to R42); no instruction changes the memory map or uses
up an environment input.
Model's choice: the memory map and the inputs, parameters of the step relation in R47, are fields of State, and an input
is used up by the sampling point of R295 or by a reset, not by an instruction (logs 5, 10, 26). -/
def Obligations.OnlyTheirInstructionsChangeInterruptState : Prop :=
  ∀ (i : Instr) (s t : State), exec i s = .next t →
    (i ≠ .ei → i ≠ .di → t.inte = s.inte) ∧
    (i ≠ .sim → t.m55 = s.m55 ∧ t.m65 = s.m65 ∧ t.m75 = s.m75 ∧ t.r75 = s.r75 ∧ t.sod = s.sod) ∧
    (i ≠ .rim → t.trapIE = s.trapIE) ∧
    (i ≠ .hlt → t.halted = s.halted) ∧
    (t.eiInhibit = true ↔ i = .ei) ∧
    t.memMap = s.memMap ∧ t.env = s.env

/-- With all memory RAM, only IN and OUT touch the trace, only IN uses up an answer, and only IN, RIM and PUSH PSW
draw a free value.
Model's choice: the trace, the answers and the counter of drawn values are fields of State, and a map with no range is
all RAM (logs 7 to 10, 13). -/
def Obligations.InAllRamOnlyInputOutputMeetsTheEnvironment : Prop :=
  ∀ (i : Instr) (s t : State), s.memMap = [] → exec i s = .next t →
    ((∀ p, i ≠ .inPort p) → (∀ p, i ≠ .outPort p) → t.trace = s.trace) ∧
    ((∀ p, i ≠ .inPort p) → t.answers = s.answers) ∧
    ((∀ p, i ≠ .inPort p) → i ≠ .rim → i ≠ .pushPsw → t.draws = s.draws)

/-- Every instruction counts the T states of the table, the shorter count where its condition does not hold (R332).
Model's choice: the counter
is kept (log 17). -/
def Obligations.TStatesFollowTheTable : Prop :=
  ∀ (i : Instr) (s t : State), exec i s = .next t → t.tstates = s.tstates + tStatesOf i (takenIn i s)

/-- Every instruction but an undefined op code has a next state, in every state; and a step stops only at an undefined
op code byte or at an INTR acknowledge outside the model: with a defined op code in plain memory at pc and quiet inputs
it answers a next state (R280, R281).
The two stops are the spec's decisions (logs 14, 15). -/
def Obligations.OnlyUndefinedOpcodesAndForeignIntrStop : Prop :=
  (∀ (i : Instr) (s : State), (∀ op, i ≠ .undefinedOp op) → ∃ t, exec i s = .next t) ∧
  (∀ (s : State) (f : Fault), step s = .fault f →
    s.halted = false ∧ (s.load s.pc).1 ∈ undefinedOpcodes ∧ f = .undefinedOpcode (s.load s.pc).1 s.pc) ∧
  (∀ (s : State) (r : Refusal), step s = .refused r →
    s.input.intr = true ∧ r = .intrInstruction s.input.intrOp ∧
    s.input.intrOp ≠ 0xCD ∧ s.input.intrOp &&& 0xC7 ≠ 0xC7) ∧
  (∀ s : State, s.isPlain s.pc = true → s.peek s.pc ∉ undefinedOpcodes → s.input.intr = false →
    ∃ t, step s = .next t)

/-- A halted machine with no interrupt to come is final: after any number of steps it is the same state, but for the
environment inputs used up; with none listed, it is the same state (R312).
Model's choice: each step uses up one input (logs 5, 26). -/
def Obligations.HaltedIsFinalWithoutInterrupts : Prop :=
  ∀ (s : State) (k : Nat), s.finished = true →
    core.run k s = .next { s with env := s.env.drop k } ∧ (s.env = [] → core.run k s = .next s)

/-- A halted machine only samples, and leaves the halt state only by a reset or by taking an interrupt: one whose request
is present and enabled, which the trace names, which pushes the pc the HLT left, and which goes on at the entry address
of its source, or where the instruction of an INTR acknowledge goes (R296, R300, R301, R311).
Model's choice: inputs are a list, and reset a step of its own (logs 5, 16). -/
def Obligations.HaltEndsOnlyByInterruptOrReset : Prop :=
  ∀ s t : State, s.halted = true → step s = .next t →
    (s.input.reset = true ∧ t = s.applyReset) ∨
    (s.input.reset = false ∧ t = nothingTaken s) ∨
    (∃ source, s.input.reset = false ∧ RequestedAt s source t.pc ∧
      (source ≠ .trap → s.inte = true ∧ s.eiInhibit = false) ∧
      t.halted = false ∧ t.inte = false ∧ t.sp = s.sp - 2 ∧
      .acknowledge source ∈ t.trace.drop s.trace.length ∧ t.mem = (s.push16 s.pc).mem)
end

