-- ==== Sys2Proof/Laws/State.lean ====
section
/-! SUPPORT. One lemma per field per named update of the state, true by definition, so that no later proof unfolds a
record update; and the same for the accesses, which leave most fields alone. -/

namespace Sys2Proof.Machine

/-! ### setReg -/

@[simp] theorem State.setReg_regs (s : State) (r : Reg) (v : Byte) : (s.setReg r v).regs = s.regs.set r v := rfl
@[simp] theorem State.setReg_flags (s : State) (r : Reg) (v : Byte) : (s.setReg r v).flags = s.flags := rfl
@[simp] theorem State.setReg_sp (s : State) (r : Reg) (v : Byte) : (s.setReg r v).sp = s.sp := rfl
@[simp] theorem State.setReg_pc (s : State) (r : Reg) (v : Byte) : (s.setReg r v).pc = s.pc := rfl
@[simp] theorem State.setReg_inte (s : State) (r : Reg) (v : Byte) : (s.setReg r v).inte = s.inte := rfl
@[simp] theorem State.setReg_m55 (s : State) (r : Reg) (v : Byte) : (s.setReg r v).m55 = s.m55 := rfl
@[simp] theorem State.setReg_m65 (s : State) (r : Reg) (v : Byte) : (s.setReg r v).m65 = s.m65 := rfl
@[simp] theorem State.setReg_m75 (s : State) (r : Reg) (v : Byte) : (s.setReg r v).m75 = s.m75 := rfl
@[simp] theorem State.setReg_r75 (s : State) (r : Reg) (v : Byte) : (s.setReg r v).r75 = s.r75 := rfl
@[simp] theorem State.setReg_sod (s : State) (r : Reg) (v : Byte) : (s.setReg r v).sod = s.sod := rfl
@[simp] theorem State.setReg_halted (s : State) (r : Reg) (v : Byte) : (s.setReg r v).halted = s.halted := rfl
@[simp] theorem State.setReg_eiInhibit (s : State) (r : Reg) (v : Byte) : (s.setReg r v).eiInhibit = s.eiInhibit := rfl
@[simp] theorem State.setReg_trapIE (s : State) (r : Reg) (v : Byte) : (s.setReg r v).trapIE = s.trapIE := rfl
@[simp] theorem State.setReg_mem (s : State) (r : Reg) (v : Byte) : (s.setReg r v).mem = s.mem := rfl
@[simp] theorem State.setReg_memMap (s : State) (r : Reg) (v : Byte) : (s.setReg r v).memMap = s.memMap := rfl
@[simp] theorem State.setReg_env (s : State) (r : Reg) (v : Byte) : (s.setReg r v).env = s.env := rfl
@[simp] theorem State.setReg_answers (s : State) (r : Reg) (v : Byte) : (s.setReg r v).answers = s.answers := rfl
@[simp] theorem State.setReg_trace (s : State) (r : Reg) (v : Byte) : (s.setReg r v).trace = s.trace := rfl
@[simp] theorem State.setReg_draws (s : State) (r : Reg) (v : Byte) : (s.setReg r v).draws = s.draws := rfl
@[simp] theorem State.setReg_tstates (s : State) (r : Reg) (v : Byte) : (s.setReg r v).tstates = s.tstates := rfl

/-! ### setA -/

@[simp] theorem State.setA_regs (s : State) (v : Byte) : (s.setA v).regs = { s.regs with a := v } := rfl
@[simp] theorem State.setA_flags (s : State) (v : Byte) : (s.setA v).flags = s.flags := rfl
@[simp] theorem State.setA_sp (s : State) (v : Byte) : (s.setA v).sp = s.sp := rfl
@[simp] theorem State.setA_pc (s : State) (v : Byte) : (s.setA v).pc = s.pc := rfl
@[simp] theorem State.setA_inte (s : State) (v : Byte) : (s.setA v).inte = s.inte := rfl
@[simp] theorem State.setA_m55 (s : State) (v : Byte) : (s.setA v).m55 = s.m55 := rfl
@[simp] theorem State.setA_m65 (s : State) (v : Byte) : (s.setA v).m65 = s.m65 := rfl
@[simp] theorem State.setA_m75 (s : State) (v : Byte) : (s.setA v).m75 = s.m75 := rfl
@[simp] theorem State.setA_r75 (s : State) (v : Byte) : (s.setA v).r75 = s.r75 := rfl
@[simp] theorem State.setA_sod (s : State) (v : Byte) : (s.setA v).sod = s.sod := rfl
@[simp] theorem State.setA_halted (s : State) (v : Byte) : (s.setA v).halted = s.halted := rfl
@[simp] theorem State.setA_eiInhibit (s : State) (v : Byte) : (s.setA v).eiInhibit = s.eiInhibit := rfl
@[simp] theorem State.setA_trapIE (s : State) (v : Byte) : (s.setA v).trapIE = s.trapIE := rfl
@[simp] theorem State.setA_mem (s : State) (v : Byte) : (s.setA v).mem = s.mem := rfl
@[simp] theorem State.setA_memMap (s : State) (v : Byte) : (s.setA v).memMap = s.memMap := rfl
@[simp] theorem State.setA_env (s : State) (v : Byte) : (s.setA v).env = s.env := rfl
@[simp] theorem State.setA_answers (s : State) (v : Byte) : (s.setA v).answers = s.answers := rfl
@[simp] theorem State.setA_trace (s : State) (v : Byte) : (s.setA v).trace = s.trace := rfl
@[simp] theorem State.setA_draws (s : State) (v : Byte) : (s.setA v).draws = s.draws := rfl
@[simp] theorem State.setA_tstates (s : State) (v : Byte) : (s.setA v).tstates = s.tstates := rfl

/-! ### setFlags -/

@[simp] theorem State.setFlags_regs (s : State) (f : Flags) : (s.setFlags f).regs = s.regs := rfl
@[simp] theorem State.setFlags_flags (s : State) (f : Flags) : (s.setFlags f).flags = f := rfl
@[simp] theorem State.setFlags_sp (s : State) (f : Flags) : (s.setFlags f).sp = s.sp := rfl
@[simp] theorem State.setFlags_pc (s : State) (f : Flags) : (s.setFlags f).pc = s.pc := rfl
@[simp] theorem State.setFlags_inte (s : State) (f : Flags) : (s.setFlags f).inte = s.inte := rfl
@[simp] theorem State.setFlags_m55 (s : State) (f : Flags) : (s.setFlags f).m55 = s.m55 := rfl
@[simp] theorem State.setFlags_m65 (s : State) (f : Flags) : (s.setFlags f).m65 = s.m65 := rfl
@[simp] theorem State.setFlags_m75 (s : State) (f : Flags) : (s.setFlags f).m75 = s.m75 := rfl
@[simp] theorem State.setFlags_r75 (s : State) (f : Flags) : (s.setFlags f).r75 = s.r75 := rfl
@[simp] theorem State.setFlags_sod (s : State) (f : Flags) : (s.setFlags f).sod = s.sod := rfl
@[simp] theorem State.setFlags_halted (s : State) (f : Flags) : (s.setFlags f).halted = s.halted := rfl
@[simp] theorem State.setFlags_eiInhibit (s : State) (f : Flags) : (s.setFlags f).eiInhibit = s.eiInhibit := rfl
@[simp] theorem State.setFlags_trapIE (s : State) (f : Flags) : (s.setFlags f).trapIE = s.trapIE := rfl
@[simp] theorem State.setFlags_mem (s : State) (f : Flags) : (s.setFlags f).mem = s.mem := rfl
@[simp] theorem State.setFlags_memMap (s : State) (f : Flags) : (s.setFlags f).memMap = s.memMap := rfl
@[simp] theorem State.setFlags_env (s : State) (f : Flags) : (s.setFlags f).env = s.env := rfl
@[simp] theorem State.setFlags_answers (s : State) (f : Flags) : (s.setFlags f).answers = s.answers := rfl
@[simp] theorem State.setFlags_trace (s : State) (f : Flags) : (s.setFlags f).trace = s.trace := rfl
@[simp] theorem State.setFlags_draws (s : State) (f : Flags) : (s.setFlags f).draws = s.draws := rfl
@[simp] theorem State.setFlags_tstates (s : State) (f : Flags) : (s.setFlags f).tstates = s.tstates := rfl

/-! ### setCY -/

@[simp] theorem State.setCY_regs (s : State) (cy : Bool) : (s.setCY cy).regs = s.regs := rfl
@[simp] theorem State.setCY_flags (s : State) (cy : Bool) : (s.setCY cy).flags = { s.flags with cy := cy } := rfl
@[simp] theorem State.setCY_sp (s : State) (cy : Bool) : (s.setCY cy).sp = s.sp := rfl
@[simp] theorem State.setCY_pc (s : State) (cy : Bool) : (s.setCY cy).pc = s.pc := rfl
@[simp] theorem State.setCY_inte (s : State) (cy : Bool) : (s.setCY cy).inte = s.inte := rfl
@[simp] theorem State.setCY_m55 (s : State) (cy : Bool) : (s.setCY cy).m55 = s.m55 := rfl
@[simp] theorem State.setCY_m65 (s : State) (cy : Bool) : (s.setCY cy).m65 = s.m65 := rfl
@[simp] theorem State.setCY_m75 (s : State) (cy : Bool) : (s.setCY cy).m75 = s.m75 := rfl
@[simp] theorem State.setCY_r75 (s : State) (cy : Bool) : (s.setCY cy).r75 = s.r75 := rfl
@[simp] theorem State.setCY_sod (s : State) (cy : Bool) : (s.setCY cy).sod = s.sod := rfl
@[simp] theorem State.setCY_halted (s : State) (cy : Bool) : (s.setCY cy).halted = s.halted := rfl
@[simp] theorem State.setCY_eiInhibit (s : State) (cy : Bool) : (s.setCY cy).eiInhibit = s.eiInhibit := rfl
@[simp] theorem State.setCY_trapIE (s : State) (cy : Bool) : (s.setCY cy).trapIE = s.trapIE := rfl
@[simp] theorem State.setCY_mem (s : State) (cy : Bool) : (s.setCY cy).mem = s.mem := rfl
@[simp] theorem State.setCY_memMap (s : State) (cy : Bool) : (s.setCY cy).memMap = s.memMap := rfl
@[simp] theorem State.setCY_env (s : State) (cy : Bool) : (s.setCY cy).env = s.env := rfl
@[simp] theorem State.setCY_answers (s : State) (cy : Bool) : (s.setCY cy).answers = s.answers := rfl
@[simp] theorem State.setCY_trace (s : State) (cy : Bool) : (s.setCY cy).trace = s.trace := rfl
@[simp] theorem State.setCY_draws (s : State) (cy : Bool) : (s.setCY cy).draws = s.draws := rfl
@[simp] theorem State.setCY_tstates (s : State) (cy : Bool) : (s.setCY cy).tstates = s.tstates := rfl

/-! ### retire -/

@[simp] theorem State.retire_regs (s : State) (next : Addr) (t : Nat) : (s.retire next t).regs = s.regs := rfl
@[simp] theorem State.retire_flags (s : State) (next : Addr) (t : Nat) : (s.retire next t).flags = s.flags := rfl
@[simp] theorem State.retire_sp (s : State) (next : Addr) (t : Nat) : (s.retire next t).sp = s.sp := rfl
@[simp] theorem State.retire_pc (s : State) (next : Addr) (t : Nat) : (s.retire next t).pc = next := rfl
@[simp] theorem State.retire_inte (s : State) (next : Addr) (t : Nat) : (s.retire next t).inte = s.inte := rfl
@[simp] theorem State.retire_m55 (s : State) (next : Addr) (t : Nat) : (s.retire next t).m55 = s.m55 := rfl
@[simp] theorem State.retire_m65 (s : State) (next : Addr) (t : Nat) : (s.retire next t).m65 = s.m65 := rfl
@[simp] theorem State.retire_m75 (s : State) (next : Addr) (t : Nat) : (s.retire next t).m75 = s.m75 := rfl
@[simp] theorem State.retire_r75 (s : State) (next : Addr) (t : Nat) : (s.retire next t).r75 = s.r75 := rfl
@[simp] theorem State.retire_sod (s : State) (next : Addr) (t : Nat) : (s.retire next t).sod = s.sod := rfl
@[simp] theorem State.retire_halted (s : State) (next : Addr) (t : Nat) : (s.retire next t).halted = s.halted := rfl
@[simp] theorem State.retire_eiInhibit (s : State) (next : Addr) (t : Nat) : (s.retire next t).eiInhibit = false := rfl
@[simp] theorem State.retire_trapIE (s : State) (next : Addr) (t : Nat) : (s.retire next t).trapIE = s.trapIE := rfl
@[simp] theorem State.retire_mem (s : State) (next : Addr) (t : Nat) : (s.retire next t).mem = s.mem := rfl
@[simp] theorem State.retire_memMap (s : State) (next : Addr) (t : Nat) : (s.retire next t).memMap = s.memMap := rfl
@[simp] theorem State.retire_env (s : State) (next : Addr) (t : Nat) : (s.retire next t).env = s.env := rfl
@[simp] theorem State.retire_answers (s : State) (next : Addr) (t : Nat) : (s.retire next t).answers = s.answers := rfl
@[simp] theorem State.retire_trace (s : State) (next : Addr) (t : Nat) : (s.retire next t).trace = s.trace := rfl
@[simp] theorem State.retire_draws (s : State) (next : Addr) (t : Nat) : (s.retire next t).draws = s.draws := rfl
@[simp] theorem State.retire_tstates (s : State) (next : Addr) (t : Nat) : (s.retire next t).tstates = s.tstates + t := rfl

/-! ### advance -/

@[simp] theorem State.advance_regs (s : State) (len t : Nat) : (s.advance len t).regs = s.regs := rfl
@[simp] theorem State.advance_flags (s : State) (len t : Nat) : (s.advance len t).flags = s.flags := rfl
@[simp] theorem State.advance_sp (s : State) (len t : Nat) : (s.advance len t).sp = s.sp := rfl
@[simp] theorem State.advance_pc (s : State) (len t : Nat) : (s.advance len t).pc = s.pc + BitVec.ofNat 16 len := rfl
@[simp] theorem State.advance_inte (s : State) (len t : Nat) : (s.advance len t).inte = s.inte := rfl
@[simp] theorem State.advance_m55 (s : State) (len t : Nat) : (s.advance len t).m55 = s.m55 := rfl
@[simp] theorem State.advance_m65 (s : State) (len t : Nat) : (s.advance len t).m65 = s.m65 := rfl
@[simp] theorem State.advance_m75 (s : State) (len t : Nat) : (s.advance len t).m75 = s.m75 := rfl
@[simp] theorem State.advance_r75 (s : State) (len t : Nat) : (s.advance len t).r75 = s.r75 := rfl
@[simp] theorem State.advance_sod (s : State) (len t : Nat) : (s.advance len t).sod = s.sod := rfl
@[simp] theorem State.advance_halted (s : State) (len t : Nat) : (s.advance len t).halted = s.halted := rfl
@[simp] theorem State.advance_eiInhibit (s : State) (len t : Nat) : (s.advance len t).eiInhibit = false := rfl
@[simp] theorem State.advance_trapIE (s : State) (len t : Nat) : (s.advance len t).trapIE = s.trapIE := rfl
@[simp] theorem State.advance_mem (s : State) (len t : Nat) : (s.advance len t).mem = s.mem := rfl
@[simp] theorem State.advance_memMap (s : State) (len t : Nat) : (s.advance len t).memMap = s.memMap := rfl
@[simp] theorem State.advance_env (s : State) (len t : Nat) : (s.advance len t).env = s.env := rfl
@[simp] theorem State.advance_answers (s : State) (len t : Nat) : (s.advance len t).answers = s.answers := rfl
@[simp] theorem State.advance_trace (s : State) (len t : Nat) : (s.advance len t).trace = s.trace := rfl
@[simp] theorem State.advance_draws (s : State) (len t : Nat) : (s.advance len t).draws = s.draws := rfl
@[simp] theorem State.advance_tstates (s : State) (len t : Nat) : (s.advance len t).tstates = s.tstates + t := rfl

/-! ### emit -/

@[simp] theorem State.emit_regs (s : State) (e : Event) : (s.emit e).regs = s.regs := rfl
@[simp] theorem State.emit_flags (s : State) (e : Event) : (s.emit e).flags = s.flags := rfl
@[simp] theorem State.emit_sp (s : State) (e : Event) : (s.emit e).sp = s.sp := rfl
@[simp] theorem State.emit_pc (s : State) (e : Event) : (s.emit e).pc = s.pc := rfl
@[simp] theorem State.emit_inte (s : State) (e : Event) : (s.emit e).inte = s.inte := rfl
@[simp] theorem State.emit_m55 (s : State) (e : Event) : (s.emit e).m55 = s.m55 := rfl
@[simp] theorem State.emit_m65 (s : State) (e : Event) : (s.emit e).m65 = s.m65 := rfl
@[simp] theorem State.emit_m75 (s : State) (e : Event) : (s.emit e).m75 = s.m75 := rfl
@[simp] theorem State.emit_r75 (s : State) (e : Event) : (s.emit e).r75 = s.r75 := rfl
@[simp] theorem State.emit_sod (s : State) (e : Event) : (s.emit e).sod = s.sod := rfl
@[simp] theorem State.emit_halted (s : State) (e : Event) : (s.emit e).halted = s.halted := rfl
@[simp] theorem State.emit_eiInhibit (s : State) (e : Event) : (s.emit e).eiInhibit = s.eiInhibit := rfl
@[simp] theorem State.emit_trapIE (s : State) (e : Event) : (s.emit e).trapIE = s.trapIE := rfl
@[simp] theorem State.emit_mem (s : State) (e : Event) : (s.emit e).mem = s.mem := rfl
@[simp] theorem State.emit_memMap (s : State) (e : Event) : (s.emit e).memMap = s.memMap := rfl
@[simp] theorem State.emit_env (s : State) (e : Event) : (s.emit e).env = s.env := rfl
@[simp] theorem State.emit_answers (s : State) (e : Event) : (s.emit e).answers = s.answers := rfl
@[simp] theorem State.emit_trace (s : State) (e : Event) : (s.emit e).trace = s.trace ++ [e] := rfl
@[simp] theorem State.emit_draws (s : State) (e : Event) : (s.emit e).draws = s.draws := rfl
@[simp] theorem State.emit_tstates (s : State) (e : Event) : (s.emit e).tstates = s.tstates := rfl

/-! ### setPair: a pair is two registers, or SP -/

@[simp] theorem State.setPair_flags (s : State) (rp : RegPair) (v : Addr) : (s.setPair rp v).flags = s.flags := by
  cases rp <;> rfl
@[simp] theorem State.setPair_pc (s : State) (rp : RegPair) (v : Addr) : (s.setPair rp v).pc = s.pc := by
  cases rp <;> rfl
@[simp] theorem State.setPair_inte (s : State) (rp : RegPair) (v : Addr) : (s.setPair rp v).inte = s.inte := by
  cases rp <;> rfl
@[simp] theorem State.setPair_m55 (s : State) (rp : RegPair) (v : Addr) : (s.setPair rp v).m55 = s.m55 := by
  cases rp <;> rfl
@[simp] theorem State.setPair_m65 (s : State) (rp : RegPair) (v : Addr) : (s.setPair rp v).m65 = s.m65 := by
  cases rp <;> rfl
@[simp] theorem State.setPair_m75 (s : State) (rp : RegPair) (v : Addr) : (s.setPair rp v).m75 = s.m75 := by
  cases rp <;> rfl
@[simp] theorem State.setPair_r75 (s : State) (rp : RegPair) (v : Addr) : (s.setPair rp v).r75 = s.r75 := by
  cases rp <;> rfl
@[simp] theorem State.setPair_sod (s : State) (rp : RegPair) (v : Addr) : (s.setPair rp v).sod = s.sod := by
  cases rp <;> rfl
@[simp] theorem State.setPair_halted (s : State) (rp : RegPair) (v : Addr) : (s.setPair rp v).halted = s.halted := by
  cases rp <;> rfl
@[simp] theorem State.setPair_eiInhibit (s : State) (rp : RegPair) (v : Addr) : (s.setPair rp v).eiInhibit = s.eiInhibit := by
  cases rp <;> rfl
@[simp] theorem State.setPair_trapIE (s : State) (rp : RegPair) (v : Addr) : (s.setPair rp v).trapIE = s.trapIE := by
  cases rp <;> rfl
@[simp] theorem State.setPair_mem (s : State) (rp : RegPair) (v : Addr) : (s.setPair rp v).mem = s.mem := by
  cases rp <;> rfl
@[simp] theorem State.setPair_memMap (s : State) (rp : RegPair) (v : Addr) : (s.setPair rp v).memMap = s.memMap := by
  cases rp <;> rfl
@[simp] theorem State.setPair_env (s : State) (rp : RegPair) (v : Addr) : (s.setPair rp v).env = s.env := by
  cases rp <;> rfl
@[simp] theorem State.setPair_answers (s : State) (rp : RegPair) (v : Addr) : (s.setPair rp v).answers = s.answers := by
  cases rp <;> rfl
@[simp] theorem State.setPair_trace (s : State) (rp : RegPair) (v : Addr) : (s.setPair rp v).trace = s.trace := by
  cases rp <;> rfl
@[simp] theorem State.setPair_draws (s : State) (rp : RegPair) (v : Addr) : (s.setPair rp v).draws = s.draws := by
  cases rp <;> rfl
@[simp] theorem State.setPair_tstates (s : State) (rp : RegPair) (v : Addr) : (s.setPair rp v).tstates = s.tstates := by
  cases rp <;> rfl
@[simp] theorem State.setPair_sp_sp (s : State) (v : Addr) : (s.setPair .sp v).sp = v := rfl
@[simp] theorem State.setPair_sp_regs (s : State) (v : Addr) : (s.setPair .sp v).regs = s.regs := rfl
@[simp] theorem State.setPair_bc_sp (s : State) (v : Addr) : (s.setPair .bc v).sp = s.sp := rfl
@[simp] theorem State.setPair_bc_regs (s : State) (v : Addr) :
    (s.setPair .bc v).regs = { s.regs with b := hiByte v, c := loByte v } := rfl
@[simp] theorem State.setPair_de_sp (s : State) (v : Addr) : (s.setPair .de v).sp = s.sp := rfl
@[simp] theorem State.setPair_de_regs (s : State) (v : Addr) :
    (s.setPair .de v).regs = { s.regs with d := hiByte v, e := loByte v } := rfl
@[simp] theorem State.setPair_hl_sp (s : State) (v : Addr) : (s.setPair .hl v).sp = s.sp := rfl
@[simp] theorem State.setPair_hl_regs (s : State) (v : Addr) :
    (s.setPair .hl v).regs = { s.regs with h := hiByte v, l := loByte v } := rfl

/-! ### envByte -/

/-- Drawing a byte uses up an answer or a free value, and changes nothing else. -/
theorem State.envByte_frame (s : State) :
    ∃ an dr, (s.envByte).2 = { s with answers := an, draws := dr } := by
  unfold State.envByte
  split
  · exact ⟨_, s.draws, rfl⟩
  · exact ⟨s.answers, _, rfl⟩

@[simp] theorem State.envByte_regs (s : State) : (s.envByte).2.regs = s.regs := by
  obtain ⟨_, _, h⟩ := s.envByte_frame
  rw [h]
@[simp] theorem State.envByte_flags (s : State) : (s.envByte).2.flags = s.flags := by
  obtain ⟨_, _, h⟩ := s.envByte_frame
  rw [h]
@[simp] theorem State.envByte_sp (s : State) : (s.envByte).2.sp = s.sp := by
  obtain ⟨_, _, h⟩ := s.envByte_frame
  rw [h]
@[simp] theorem State.envByte_pc (s : State) : (s.envByte).2.pc = s.pc := by
  obtain ⟨_, _, h⟩ := s.envByte_frame
  rw [h]
@[simp] theorem State.envByte_inte (s : State) : (s.envByte).2.inte = s.inte := by
  obtain ⟨_, _, h⟩ := s.envByte_frame
  rw [h]
@[simp] theorem State.envByte_m55 (s : State) : (s.envByte).2.m55 = s.m55 := by
  obtain ⟨_, _, h⟩ := s.envByte_frame
  rw [h]
@[simp] theorem State.envByte_m65 (s : State) : (s.envByte).2.m65 = s.m65 := by
  obtain ⟨_, _, h⟩ := s.envByte_frame
  rw [h]
@[simp] theorem State.envByte_m75 (s : State) : (s.envByte).2.m75 = s.m75 := by
  obtain ⟨_, _, h⟩ := s.envByte_frame
  rw [h]
@[simp] theorem State.envByte_r75 (s : State) : (s.envByte).2.r75 = s.r75 := by
  obtain ⟨_, _, h⟩ := s.envByte_frame
  rw [h]
@[simp] theorem State.envByte_sod (s : State) : (s.envByte).2.sod = s.sod := by
  obtain ⟨_, _, h⟩ := s.envByte_frame
  rw [h]
@[simp] theorem State.envByte_halted (s : State) : (s.envByte).2.halted = s.halted := by
  obtain ⟨_, _, h⟩ := s.envByte_frame
  rw [h]
@[simp] theorem State.envByte_eiInhibit (s : State) : (s.envByte).2.eiInhibit = s.eiInhibit := by
  obtain ⟨_, _, h⟩ := s.envByte_frame
  rw [h]
@[simp] theorem State.envByte_trapIE (s : State) : (s.envByte).2.trapIE = s.trapIE := by
  obtain ⟨_, _, h⟩ := s.envByte_frame
  rw [h]
@[simp] theorem State.envByte_mem (s : State) : (s.envByte).2.mem = s.mem := by
  obtain ⟨_, _, h⟩ := s.envByte_frame
  rw [h]
@[simp] theorem State.envByte_memMap (s : State) : (s.envByte).2.memMap = s.memMap := by
  obtain ⟨_, _, h⟩ := s.envByte_frame
  rw [h]
@[simp] theorem State.envByte_env (s : State) : (s.envByte).2.env = s.env := by
  obtain ⟨_, _, h⟩ := s.envByte_frame
  rw [h]
@[simp] theorem State.envByte_trace (s : State) : (s.envByte).2.trace = s.trace := by
  obtain ⟨_, _, h⟩ := s.envByte_frame
  rw [h]
@[simp] theorem State.envByte_tstates (s : State) : (s.envByte).2.tstates = s.tstates := by
  obtain ⟨_, _, h⟩ := s.envByte_frame
  rw [h]

/-! ### readSid -/

/-- A read of SID changes at most the draws. -/
theorem State.readSid_frame (s : State) : ∃ dr, s.readSid.2 = { s with draws := dr } := by
  unfold State.readSid
  split
  · exact ⟨s.draws, rfl⟩
  · exact ⟨s.draws + 1, rfl⟩

@[simp] theorem State.readSid_regs (s : State) : s.readSid.2.regs = s.regs := by
  obtain ⟨_, h⟩ := s.readSid_frame
  rw [h]
@[simp] theorem State.readSid_flags (s : State) : s.readSid.2.flags = s.flags := by
  obtain ⟨_, h⟩ := s.readSid_frame
  rw [h]
@[simp] theorem State.readSid_sp (s : State) : s.readSid.2.sp = s.sp := by
  obtain ⟨_, h⟩ := s.readSid_frame
  rw [h]
@[simp] theorem State.readSid_pc (s : State) : s.readSid.2.pc = s.pc := by
  obtain ⟨_, h⟩ := s.readSid_frame
  rw [h]
@[simp] theorem State.readSid_inte (s : State) : s.readSid.2.inte = s.inte := by
  obtain ⟨_, h⟩ := s.readSid_frame
  rw [h]
@[simp] theorem State.readSid_m55 (s : State) : s.readSid.2.m55 = s.m55 := by
  obtain ⟨_, h⟩ := s.readSid_frame
  rw [h]
@[simp] theorem State.readSid_m65 (s : State) : s.readSid.2.m65 = s.m65 := by
  obtain ⟨_, h⟩ := s.readSid_frame
  rw [h]
@[simp] theorem State.readSid_m75 (s : State) : s.readSid.2.m75 = s.m75 := by
  obtain ⟨_, h⟩ := s.readSid_frame
  rw [h]
@[simp] theorem State.readSid_r75 (s : State) : s.readSid.2.r75 = s.r75 := by
  obtain ⟨_, h⟩ := s.readSid_frame
  rw [h]
@[simp] theorem State.readSid_sod (s : State) : s.readSid.2.sod = s.sod := by
  obtain ⟨_, h⟩ := s.readSid_frame
  rw [h]
@[simp] theorem State.readSid_halted (s : State) : s.readSid.2.halted = s.halted := by
  obtain ⟨_, h⟩ := s.readSid_frame
  rw [h]
@[simp] theorem State.readSid_eiInhibit (s : State) : s.readSid.2.eiInhibit = s.eiInhibit := by
  obtain ⟨_, h⟩ := s.readSid_frame
  rw [h]
@[simp] theorem State.readSid_trapIE (s : State) : s.readSid.2.trapIE = s.trapIE := by
  obtain ⟨_, h⟩ := s.readSid_frame
  rw [h]
@[simp] theorem State.readSid_mem (s : State) : s.readSid.2.mem = s.mem := by
  obtain ⟨_, h⟩ := s.readSid_frame
  rw [h]
@[simp] theorem State.readSid_memMap (s : State) : s.readSid.2.memMap = s.memMap := by
  obtain ⟨_, h⟩ := s.readSid_frame
  rw [h]
@[simp] theorem State.readSid_env (s : State) : s.readSid.2.env = s.env := by
  obtain ⟨_, h⟩ := s.readSid_frame
  rw [h]
@[simp] theorem State.readSid_answers (s : State) : s.readSid.2.answers = s.answers := by
  obtain ⟨_, h⟩ := s.readSid_frame
  rw [h]
@[simp] theorem State.readSid_trace (s : State) : s.readSid.2.trace = s.trace := by
  obtain ⟨_, h⟩ := s.readSid_frame
  rw [h]
@[simp] theorem State.readSid_tstates (s : State) : s.readSid.2.tstates = s.tstates := by
  obtain ⟨_, h⟩ := s.readSid_frame
  rw [h]

/-! ### load -/

/-- A memory read changes at most the answers, the trace and the draws. -/
theorem State.load_frame (s : State) (a : Addr) :
    ∃ an tr dr, (s.load a).2 = { s with answers := an, trace := tr, draws := dr } := by
  unfold State.load
  split
  · exact ⟨s.answers, s.trace, s.draws, rfl⟩
  · exact ⟨s.answers, s.trace, s.draws, rfl⟩
  · obtain ⟨an, dr, h⟩ := s.envByte_frame
    exact ⟨an, s.trace, dr, h⟩
  · obtain ⟨an, dr, h⟩ := s.envByte_frame
    exact ⟨an, _, dr, by rw [State.emit, h]⟩

@[simp] theorem State.load_regs (s : State) (a : Addr) : (s.load a).2.regs = s.regs := by
  obtain ⟨_, _, _, h⟩ := s.load_frame a
  rw [h]
@[simp] theorem State.load_flags (s : State) (a : Addr) : (s.load a).2.flags = s.flags := by
  obtain ⟨_, _, _, h⟩ := s.load_frame a
  rw [h]
@[simp] theorem State.load_sp (s : State) (a : Addr) : (s.load a).2.sp = s.sp := by
  obtain ⟨_, _, _, h⟩ := s.load_frame a
  rw [h]
@[simp] theorem State.load_pc (s : State) (a : Addr) : (s.load a).2.pc = s.pc := by
  obtain ⟨_, _, _, h⟩ := s.load_frame a
  rw [h]
@[simp] theorem State.load_inte (s : State) (a : Addr) : (s.load a).2.inte = s.inte := by
  obtain ⟨_, _, _, h⟩ := s.load_frame a
  rw [h]
@[simp] theorem State.load_m55 (s : State) (a : Addr) : (s.load a).2.m55 = s.m55 := by
  obtain ⟨_, _, _, h⟩ := s.load_frame a
  rw [h]
@[simp] theorem State.load_m65 (s : State) (a : Addr) : (s.load a).2.m65 = s.m65 := by
  obtain ⟨_, _, _, h⟩ := s.load_frame a
  rw [h]
@[simp] theorem State.load_m75 (s : State) (a : Addr) : (s.load a).2.m75 = s.m75 := by
  obtain ⟨_, _, _, h⟩ := s.load_frame a
  rw [h]
@[simp] theorem State.load_r75 (s : State) (a : Addr) : (s.load a).2.r75 = s.r75 := by
  obtain ⟨_, _, _, h⟩ := s.load_frame a
  rw [h]
@[simp] theorem State.load_sod (s : State) (a : Addr) : (s.load a).2.sod = s.sod := by
  obtain ⟨_, _, _, h⟩ := s.load_frame a
  rw [h]
@[simp] theorem State.load_halted (s : State) (a : Addr) : (s.load a).2.halted = s.halted := by
  obtain ⟨_, _, _, h⟩ := s.load_frame a
  rw [h]
@[simp] theorem State.load_eiInhibit (s : State) (a : Addr) : (s.load a).2.eiInhibit = s.eiInhibit := by
  obtain ⟨_, _, _, h⟩ := s.load_frame a
  rw [h]
@[simp] theorem State.load_trapIE (s : State) (a : Addr) : (s.load a).2.trapIE = s.trapIE := by
  obtain ⟨_, _, _, h⟩ := s.load_frame a
  rw [h]
@[simp] theorem State.load_mem (s : State) (a : Addr) : (s.load a).2.mem = s.mem := by
  obtain ⟨_, _, _, h⟩ := s.load_frame a
  rw [h]
@[simp] theorem State.load_memMap (s : State) (a : Addr) : (s.load a).2.memMap = s.memMap := by
  obtain ⟨_, _, _, h⟩ := s.load_frame a
  rw [h]
@[simp] theorem State.load_env (s : State) (a : Addr) : (s.load a).2.env = s.env := by
  obtain ⟨_, _, _, h⟩ := s.load_frame a
  rw [h]
@[simp] theorem State.load_tstates (s : State) (a : Addr) : (s.load a).2.tstates = s.tstates := by
  obtain ⟨_, _, _, h⟩ := s.load_frame a
  rw [h]

/-! ### store -/

/-- A memory write changes at most memory and the trace. -/
theorem State.store_frame (s : State) (a : Addr) (v : Byte) :
    ∃ m tr, (s.store a v) = { s with mem := m, trace := tr } := by
  unfold State.store
  split
  · exact ⟨_, s.trace, rfl⟩
  · exact ⟨s.mem, s.trace, rfl⟩
  · exact ⟨s.mem, s.trace, rfl⟩
  · exact ⟨s.mem, _, rfl⟩

@[simp] theorem State.store_regs (s : State) (a : Addr) (v : Byte) : (s.store a v).regs = s.regs := by
  obtain ⟨_, _, h⟩ := s.store_frame a v
  rw [h]
@[simp] theorem State.store_flags (s : State) (a : Addr) (v : Byte) : (s.store a v).flags = s.flags := by
  obtain ⟨_, _, h⟩ := s.store_frame a v
  rw [h]
@[simp] theorem State.store_sp (s : State) (a : Addr) (v : Byte) : (s.store a v).sp = s.sp := by
  obtain ⟨_, _, h⟩ := s.store_frame a v
  rw [h]
@[simp] theorem State.store_pc (s : State) (a : Addr) (v : Byte) : (s.store a v).pc = s.pc := by
  obtain ⟨_, _, h⟩ := s.store_frame a v
  rw [h]
@[simp] theorem State.store_inte (s : State) (a : Addr) (v : Byte) : (s.store a v).inte = s.inte := by
  obtain ⟨_, _, h⟩ := s.store_frame a v
  rw [h]
@[simp] theorem State.store_m55 (s : State) (a : Addr) (v : Byte) : (s.store a v).m55 = s.m55 := by
  obtain ⟨_, _, h⟩ := s.store_frame a v
  rw [h]
@[simp] theorem State.store_m65 (s : State) (a : Addr) (v : Byte) : (s.store a v).m65 = s.m65 := by
  obtain ⟨_, _, h⟩ := s.store_frame a v
  rw [h]
@[simp] theorem State.store_m75 (s : State) (a : Addr) (v : Byte) : (s.store a v).m75 = s.m75 := by
  obtain ⟨_, _, h⟩ := s.store_frame a v
  rw [h]
@[simp] theorem State.store_r75 (s : State) (a : Addr) (v : Byte) : (s.store a v).r75 = s.r75 := by
  obtain ⟨_, _, h⟩ := s.store_frame a v
  rw [h]
@[simp] theorem State.store_sod (s : State) (a : Addr) (v : Byte) : (s.store a v).sod = s.sod := by
  obtain ⟨_, _, h⟩ := s.store_frame a v
  rw [h]
@[simp] theorem State.store_halted (s : State) (a : Addr) (v : Byte) : (s.store a v).halted = s.halted := by
  obtain ⟨_, _, h⟩ := s.store_frame a v
  rw [h]
@[simp] theorem State.store_eiInhibit (s : State) (a : Addr) (v : Byte) : (s.store a v).eiInhibit = s.eiInhibit := by
  obtain ⟨_, _, h⟩ := s.store_frame a v
  rw [h]
@[simp] theorem State.store_trapIE (s : State) (a : Addr) (v : Byte) : (s.store a v).trapIE = s.trapIE := by
  obtain ⟨_, _, h⟩ := s.store_frame a v
  rw [h]
@[simp] theorem State.store_memMap (s : State) (a : Addr) (v : Byte) : (s.store a v).memMap = s.memMap := by
  obtain ⟨_, _, h⟩ := s.store_frame a v
  rw [h]
@[simp] theorem State.store_env (s : State) (a : Addr) (v : Byte) : (s.store a v).env = s.env := by
  obtain ⟨_, _, h⟩ := s.store_frame a v
  rw [h]
@[simp] theorem State.store_answers (s : State) (a : Addr) (v : Byte) : (s.store a v).answers = s.answers := by
  obtain ⟨_, _, h⟩ := s.store_frame a v
  rw [h]
@[simp] theorem State.store_draws (s : State) (a : Addr) (v : Byte) : (s.store a v).draws = s.draws := by
  obtain ⟨_, _, h⟩ := s.store_frame a v
  rw [h]
@[simp] theorem State.store_tstates (s : State) (a : Addr) (v : Byte) : (s.store a v).tstates = s.tstates := by
  obtain ⟨_, _, h⟩ := s.store_frame a v
  rw [h]

/-! ### push16 -/

/-- A push changes at most SP, memory and the trace. -/
theorem State.push16_frame (s : State) (v : Addr) :
    ∃ p m tr, (s.push16 v) = { s with sp := p, mem := m, trace := tr } := by
  obtain ⟨m₁, t₁, h₁⟩ := s.store_frame (s.sp - 1) (hiByte v)
  obtain ⟨m₂, t₂, h₂⟩ := (s.store (s.sp - 1) (hiByte v)).store_frame (s.sp - 2) (loByte v)
  exact ⟨s.sp - 2, m₂, t₂, by simp only [State.push16]; rw [h₂, h₁]⟩

@[simp] theorem State.push16_regs (s : State) (v : Addr) : (s.push16 v).regs = s.regs := by
  obtain ⟨_, _, _, h⟩ := s.push16_frame v
  rw [h]
@[simp] theorem State.push16_flags (s : State) (v : Addr) : (s.push16 v).flags = s.flags := by
  obtain ⟨_, _, _, h⟩ := s.push16_frame v
  rw [h]
@[simp] theorem State.push16_pc (s : State) (v : Addr) : (s.push16 v).pc = s.pc := by
  obtain ⟨_, _, _, h⟩ := s.push16_frame v
  rw [h]
@[simp] theorem State.push16_inte (s : State) (v : Addr) : (s.push16 v).inte = s.inte := by
  obtain ⟨_, _, _, h⟩ := s.push16_frame v
  rw [h]
@[simp] theorem State.push16_m55 (s : State) (v : Addr) : (s.push16 v).m55 = s.m55 := by
  obtain ⟨_, _, _, h⟩ := s.push16_frame v
  rw [h]
@[simp] theorem State.push16_m65 (s : State) (v : Addr) : (s.push16 v).m65 = s.m65 := by
  obtain ⟨_, _, _, h⟩ := s.push16_frame v
  rw [h]
@[simp] theorem State.push16_m75 (s : State) (v : Addr) : (s.push16 v).m75 = s.m75 := by
  obtain ⟨_, _, _, h⟩ := s.push16_frame v
  rw [h]
@[simp] theorem State.push16_r75 (s : State) (v : Addr) : (s.push16 v).r75 = s.r75 := by
  obtain ⟨_, _, _, h⟩ := s.push16_frame v
  rw [h]
@[simp] theorem State.push16_sod (s : State) (v : Addr) : (s.push16 v).sod = s.sod := by
  obtain ⟨_, _, _, h⟩ := s.push16_frame v
  rw [h]
@[simp] theorem State.push16_halted (s : State) (v : Addr) : (s.push16 v).halted = s.halted := by
  obtain ⟨_, _, _, h⟩ := s.push16_frame v
  rw [h]
@[simp] theorem State.push16_eiInhibit (s : State) (v : Addr) : (s.push16 v).eiInhibit = s.eiInhibit := by
  obtain ⟨_, _, _, h⟩ := s.push16_frame v
  rw [h]
@[simp] theorem State.push16_trapIE (s : State) (v : Addr) : (s.push16 v).trapIE = s.trapIE := by
  obtain ⟨_, _, _, h⟩ := s.push16_frame v
  rw [h]
@[simp] theorem State.push16_memMap (s : State) (v : Addr) : (s.push16 v).memMap = s.memMap := by
  obtain ⟨_, _, _, h⟩ := s.push16_frame v
  rw [h]
@[simp] theorem State.push16_env (s : State) (v : Addr) : (s.push16 v).env = s.env := by
  obtain ⟨_, _, _, h⟩ := s.push16_frame v
  rw [h]
@[simp] theorem State.push16_answers (s : State) (v : Addr) : (s.push16 v).answers = s.answers := by
  obtain ⟨_, _, _, h⟩ := s.push16_frame v
  rw [h]
@[simp] theorem State.push16_draws (s : State) (v : Addr) : (s.push16 v).draws = s.draws := by
  obtain ⟨_, _, _, h⟩ := s.push16_frame v
  rw [h]
@[simp] theorem State.push16_tstates (s : State) (v : Addr) : (s.push16 v).tstates = s.tstates := by
  obtain ⟨_, _, _, h⟩ := s.push16_frame v
  rw [h]

/-! ### pop16 -/

/-- A pop changes at most SP, the answers, the trace and the draws. -/
theorem State.pop16_frame (s : State) :
    ∃ p an tr dr, (s.pop16).2 = { s with sp := p, answers := an, trace := tr, draws := dr } := by
  obtain ⟨an₁, tr₁, dr₁, h₁⟩ := s.load_frame s.sp
  obtain ⟨an₂, tr₂, dr₂, h₂⟩ := (s.load s.sp).2.load_frame (s.sp + 1)
  exact ⟨s.sp + 2, an₂, tr₂, dr₂, by simp only [State.pop16]; rw [h₂, h₁]⟩

@[simp] theorem State.pop16_regs (s : State) : (s.pop16).2.regs = s.regs := by
  obtain ⟨_, _, _, _, h⟩ := s.pop16_frame
  rw [h]
@[simp] theorem State.pop16_flags (s : State) : (s.pop16).2.flags = s.flags := by
  obtain ⟨_, _, _, _, h⟩ := s.pop16_frame
  rw [h]
@[simp] theorem State.pop16_pc (s : State) : (s.pop16).2.pc = s.pc := by
  obtain ⟨_, _, _, _, h⟩ := s.pop16_frame
  rw [h]
@[simp] theorem State.pop16_inte (s : State) : (s.pop16).2.inte = s.inte := by
  obtain ⟨_, _, _, _, h⟩ := s.pop16_frame
  rw [h]
@[simp] theorem State.pop16_m55 (s : State) : (s.pop16).2.m55 = s.m55 := by
  obtain ⟨_, _, _, _, h⟩ := s.pop16_frame
  rw [h]
@[simp] theorem State.pop16_m65 (s : State) : (s.pop16).2.m65 = s.m65 := by
  obtain ⟨_, _, _, _, h⟩ := s.pop16_frame
  rw [h]
@[simp] theorem State.pop16_m75 (s : State) : (s.pop16).2.m75 = s.m75 := by
  obtain ⟨_, _, _, _, h⟩ := s.pop16_frame
  rw [h]
@[simp] theorem State.pop16_r75 (s : State) : (s.pop16).2.r75 = s.r75 := by
  obtain ⟨_, _, _, _, h⟩ := s.pop16_frame
  rw [h]
@[simp] theorem State.pop16_sod (s : State) : (s.pop16).2.sod = s.sod := by
  obtain ⟨_, _, _, _, h⟩ := s.pop16_frame
  rw [h]
@[simp] theorem State.pop16_halted (s : State) : (s.pop16).2.halted = s.halted := by
  obtain ⟨_, _, _, _, h⟩ := s.pop16_frame
  rw [h]
@[simp] theorem State.pop16_eiInhibit (s : State) : (s.pop16).2.eiInhibit = s.eiInhibit := by
  obtain ⟨_, _, _, _, h⟩ := s.pop16_frame
  rw [h]
@[simp] theorem State.pop16_trapIE (s : State) : (s.pop16).2.trapIE = s.trapIE := by
  obtain ⟨_, _, _, _, h⟩ := s.pop16_frame
  rw [h]
@[simp] theorem State.pop16_mem (s : State) : (s.pop16).2.mem = s.mem := by
  obtain ⟨_, _, _, _, h⟩ := s.pop16_frame
  rw [h]
@[simp] theorem State.pop16_memMap (s : State) : (s.pop16).2.memMap = s.memMap := by
  obtain ⟨_, _, _, _, h⟩ := s.pop16_frame
  rw [h]
@[simp] theorem State.pop16_env (s : State) : (s.pop16).2.env = s.env := by
  obtain ⟨_, _, _, _, h⟩ := s.pop16_frame
  rw [h]
@[simp] theorem State.pop16_tstates (s : State) : (s.pop16).2.tstates = s.tstates := by
  obtain ⟨_, _, _, _, h⟩ := s.pop16_frame
  rw [h]

/-- A push lowers SP by 2. -/
@[simp] theorem State.push16_sp (s : State) (v : Addr) : (s.push16 v).sp = s.sp - 2 := rfl

/-- A pop raises SP by 2. -/
@[simp] theorem State.pop16_sp (s : State) : s.pop16.2.sp = s.sp + 2 := rfl

end Sys2Proof.Machine
end

