-- ==== Sys2Proof/Laws/Ops.lean ====
section
/-! SUPPORT. For each shared operation, one lemma that says once what it can do; later proofs cite it instead of
unfolding the operation. -/

namespace Sys2Proof

/-! ### Halves of a 16-bit value -/

@[simp] theorem hiByte_word16 (hi lo : Byte) : hiByte (word16 hi lo) = hi :=
  BitVec.extractLsb'_append_eq_left

@[simp] theorem loByte_word16 (hi lo : Byte) : loByte (word16 hi lo) = lo :=
  BitVec.extractLsb'_append_eq_right

@[simp] theorem word16_halves (v : Addr) : word16 (hiByte v) (loByte v) = v := by
  apply BitVec.eq_of_getLsbD_eq
  intro i hi'
  simp only [hiByte, loByte, word16, BitVec.getLsbD_extractLsb', BitVec.getLsbD_append]
  by_cases h : i < 8
  · simp [h]
  · have h2 : i - 8 < 8 := by omega
    have h3 : 8 + (i - 8) = i := by omega
    simp [h, h2, h3]

namespace Machine

/-! ### Reading and writing one byte -/

/-- A read of RAM or ROM gives the byte held and changes nothing (R57). -/
theorem State.load_plain {s : State} {a : Addr} (h : s.isPlain a = true) : s.load a = (s.peek a, s) := by
  unfold State.isPlain at h
  unfold State.load
  split at h <;> simp_all

theorem State.load_absent {s : State} {a : Addr} (h : s.kindAt a = .absent) : s.load a = s.envByte := by
  simp [State.load, h]

theorem State.load_device {s : State} {a : Addr} (h : s.kindAt a = .device) :
    s.load a = (s.envByte.1, s.envByte.2.emit (.memRead a s.envByte.1)) := by
  simp [State.load, h]

theorem State.store_ram {s : State} {a : Addr} (v : Byte) (h : s.kindAt a = .ram) :
    s.store a v = { s with mem := Memory.write s.mem a.toNat v } := by
  simp [State.store, h]

theorem State.store_rom {s : State} {a : Addr} (v : Byte) (h : s.kindAt a = .rom) : s.store a v = s := by
  simp [State.store, h]

theorem State.store_absent {s : State} {a : Addr} (v : Byte) (h : s.kindAt a = .absent) : s.store a v = s := by
  simp [State.store, h]

theorem State.store_device {s : State} {a : Addr} (v : Byte) (h : s.kindAt a = .device) :
    s.store a v = s.emit (.memWrite a v) := by
  simp [State.store, h]

/-- What a store does to memory: it writes the one byte, where the address is RAM, and nothing else. -/
theorem State.store_mem (s : State) (a : Addr) (v : Byte) :
    (s.store a v).mem = if s.kindAt a = .ram then Memory.write s.mem a.toNat v else s.mem := by
  unfold State.store
  split <;> simp_all

@[simp] theorem State.load_kindAt (s : State) (a b : Addr) : (s.load a).2.kindAt b = s.kindAt b := by
  simp [State.kindAt]

@[simp] theorem State.store_kindAt (s : State) (a b : Addr) (v : Byte) : (s.store a v).kindAt b = s.kindAt b := by
  simp [State.kindAt]

@[simp] theorem State.load_peek (s : State) (a b : Addr) : (s.load a).2.peek b = s.peek b := by
  simp [State.peek]

/-- A store leaves every other byte alone. -/
theorem State.store_peek_other (s : State) {a b : Addr} (v : Byte) (h : b ≠ a) :
    (s.store a v).peek b = s.peek b := by
  have hn : b.toNat ≠ a.toNat := fun e => h (BitVec.eq_of_toNat_eq e)
  simp only [State.peek, State.store_mem]
  split
  · exact Memory.read_write_other _ _ hn
  · rfl

/-- A store to RAM is read back. -/
theorem State.store_peek_same {s : State} {a : Addr} (v : Byte) (hw : Memory.wf s.mem = true)
    (h : s.kindAt a = .ram) : (s.store a v).peek a = v := by
  simp only [State.peek, State.store_mem, if_pos h]
  exact Memory.read_write_same _ _ hw

/-- No store changes a byte that is not RAM (R57). -/
theorem State.store_peek_notRam {s : State} {a b : Addr} (v : Byte) (h : s.kindAt b ≠ .ram) :
    (s.store a v).peek b = s.peek b := by
  by_cases e : b = a
  · subst e
    simp [State.peek, State.store_mem, h]
  · exact s.store_peek_other v e

/-- A store keeps memory in canonical form. -/
theorem State.store_wf {s : State} (a : Addr) (v : Byte) (hw : Memory.wf s.mem = true) :
    Memory.wf (s.store a v).mem = true := by
  rw [State.store_mem]
  split
  · exact Memory.wf_write v hw a.isLt
  · exact hw

/-! ### The stack -/

/-- The memory after a push is that of its two stores. -/
theorem State.push16_mem (s : State) (v : Addr) :
    (s.push16 v).mem = ((s.store (s.sp - 1) (hiByte v)).store (s.sp - 2) (loByte v)).mem := rfl

@[simp] theorem State.push16_kindAt (s : State) (v b : Addr) : (s.push16 v).kindAt b = s.kindAt b := by
  simp [State.kindAt]

@[simp] theorem State.pop16_kindAt (s : State) (b : Addr) : s.pop16.2.kindAt b = s.kindAt b := by
  simp [State.kindAt]

/-- A push keeps memory in canonical form. -/
theorem State.push16_wf {s : State} (v : Addr) (hw : Memory.wf s.mem = true) : Memory.wf (s.push16 v).mem = true := by
  rw [State.push16_mem]
  exact State.store_wf _ _ (State.store_wf _ _ hw)

/-- A push leaves every byte but the two at SP-1 and SP-2 alone. -/
theorem State.push16_peek_other (s : State) (v : Addr) {b : Addr} (h1 : b ≠ s.sp - 1) (h2 : b ≠ s.sp - 2) :
    (s.push16 v).peek b = s.peek b := by
  have : (s.push16 v).peek b = ((s.store (s.sp - 1) (hiByte v)).store (s.sp - 2) (loByte v)).peek b := rfl
  rw [this, State.store_peek_other _ _ h2, State.store_peek_other _ _ h1]

/-- No push changes a byte that is not RAM. -/
theorem State.push16_peek_notRam {s : State} (v : Addr) {b : Addr} (h : s.kindAt b ≠ .ram) :
    (s.push16 v).peek b = s.peek b := by
  have : (s.push16 v).peek b = ((s.store (s.sp - 1) (hiByte v)).store (s.sp - 2) (loByte v)).peek b := rfl
  rw [this, State.store_peek_notRam _ (by simpa using h), State.store_peek_notRam _ h]

/-- A pop from RAM or ROM gives the two bytes at SP, the low one first (R261). -/
theorem State.pop16_plain {s : State} (h1 : s.isPlain s.sp = true) (h2 : s.isPlain (s.sp + 1) = true) :
    s.pop16 = (word16 (s.peek (s.sp + 1)) (s.peek s.sp), { s with sp := s.sp + 2 }) := by
  simp only [State.pop16, State.load_plain h1, State.load_plain h2]

/-- A pop leaves memory alone. -/
@[simp] theorem State.pop16_peek (s : State) (b : Addr) : s.pop16.2.peek b = s.peek b := by
  simp [State.peek]

/-! ### Fetch -/

/-- A fetch changes at most the answers, the trace and the draws. -/
theorem State.fetch_frame (s : State) :
    ∃ an tr dr, s.fetch.2 = { s with answers := an, trace := tr, draws := dr } := by
  obtain ⟨a1, t1, d1, h1⟩ := s.load_frame s.pc
  obtain ⟨a2, t2, d2, h2⟩ := (s.load s.pc).2.load_frame (s.pc + 1)
  obtain ⟨a3, t3, d3, h3⟩ := ((s.load s.pc).2.load (s.pc + 1)).2.load_frame (s.pc + 2)
  simp only [State.fetch]
  split
  · exact ⟨a1, t1, d1, h1⟩
  · exact ⟨a2, t2, d2, by rw [h2, h1]⟩
  · exact ⟨a3, t3, d3, by rw [h3, h2, h1]⟩

/-- A fetch from RAM or ROM changes nothing, and decodes the bytes held at pc. -/
theorem State.fetch_plain {s : State} (h0 : s.isPlain s.pc = true) (h1 : s.isPlain (s.pc + 1) = true)
    (h2 : s.isPlain (s.pc + 2) = true) :
    s.fetch = match opLength (s.peek s.pc) with
      | 1 => (decodeBytes (s.peek s.pc) 0 0, s)
      | 2 => (decodeBytes (s.peek s.pc) (s.peek (s.pc + 1)) 0, s)
      | _ => (decodeBytes (s.peek s.pc) (s.peek (s.pc + 1)) (s.peek (s.pc + 2)), s) := by
  simp only [State.fetch, State.load_plain h0, State.load_plain h1, State.load_plain h2] <;> rfl

/-! ### Interrupts -/

/-- Taking an interrupt changes the halt state, the interrupt state, the stack, pc and the trace, and nothing else. -/
theorem State.takeInterrupt_frame (s : State) (source : IntSource) (target : Addr) :
    ∃ m tr, s.takeInterrupt source target =
      { s.acknowledge source with sp := s.sp - 2, pc := target, mem := m, trace := tr } := by
  obtain ⟨p, m, tr, h⟩ := (s.acknowledge source).push16_frame s.pc
  have hp : s.sp - 2 = p := congrArg State.sp h
  exact ⟨m, tr, by rw [State.takeInterrupt, h, hp]⟩

/-- A store's effect on memory is a function of the memory and the memory map. -/
theorem State.store_mem_congr {s t : State} (hm : s.mem = t.mem) (hk : s.memMap = t.memMap) (a : Addr) (v : Byte) :
    (s.store a v).mem = (t.store a v).mem := by
  have hkind : s.kindAt a = t.kindAt a := by simp only [State.kindAt, hk]
  rw [State.store_mem, State.store_mem, hkind, hm]

/-- A push's effect on memory is a function of SP, the memory and the memory map. -/
theorem State.push16_mem_congr {s t : State} (hs : s.sp = t.sp) (hm : s.mem = t.mem) (hk : s.memMap = t.memMap)
    (v : Addr) : (s.push16 v).mem = (t.push16 v).mem := by
  rw [State.push16_mem, State.push16_mem, hs]
  exact State.store_mem_congr (State.store_mem_congr hm hk _ _) (by simpa using hk) _ _

/-- The memory after an acknowledge is that of pushing pc (R297). -/
theorem State.takeInterrupt_mem (s : State) (source : IntSource) (target : Addr) :
    (s.takeInterrupt source target).mem = (s.push16 s.pc).mem :=
  State.push16_mem_congr (s := s.acknowledge source) (t := s) rfl rfl rfl s.pc

/-- An acknowledge keeps memory in canonical form. -/
theorem State.takeInterrupt_wf {s : State} (source : IntSource) (target : Addr) (hw : Memory.wf s.mem = true) :
    Memory.wf (s.takeInterrupt source target).mem = true := by
  rw [State.takeInterrupt_mem]
  exact State.push16_wf _ hw

/-- The state at a sampling point once this point's RST 7.5 edge is latched and its input used up (R295). -/
def State.latched (s : State) : State := { s with env := s.env.tail, r75 := s.r75 || s.input.e75 }

/-- What a sampling point can answer: the latched state with nothing taken, or one acknowledge from it. -/
theorem State.sample_cases {s t : State} (h : s.sample = .next t) :
    (s.latched.chosenSource s.input = none ∧ t = s.latched) ∨
    (∃ source target, s.latched.chosenSource s.input = some source ∧
      t = s.latched.takeInterrupt source target) := by
  unfold State.sample at h
  simp only at h
  split at h
  · rename_i hc
    cases h
    exact .inl ⟨hc, rfl⟩
  · rename_i hc
    split at h
    · cases h
      exact .inr ⟨_, _, hc, rfl⟩
    · cases h
  · rename_i hc
    cases h
    exact .inr ⟨_, _, hc, rfl⟩

/-- A sampling point at which no source is chosen only latches and uses up its input. -/
theorem State.sample_none {s : State} (h : s.latched.chosenSource s.input = none) : s.sample = .next s.latched := by
  rw [State.latched] at h
  simp only [State.sample, h, State.latched]

/-- What a quiet input holds: no request, no level that a RIM reads, no reset. -/
theorem EnvInput.quiet_fields {e : EnvInput} (h : e.quiet = true) :
    e.trap = false ∧ e.e75 = false ∧ e.l65 = false ∧ e.l55 = false ∧ e.rim65 = false ∧ e.rim55 = false ∧
    e.intr = false ∧ e.reset = false := by
  simpa [EnvInput.quiet, and_assoc] using h

/-- Under `NoInterrupts` the current input is quiet. -/
theorem State.noInterrupts_input {s : State} (h : s.noInterrupts = true) : s.input.quiet = true := by
  unfold State.noInterrupts at h
  unfold State.input
  cases he : s.env with
  | nil => rfl
  | cons e rest =>
    rw [he, List.all_cons, Bool.and_eq_true] at h
    exact h.1

/-- What a step can answer: a reset, a sampling point while halted, or one instruction and the sampling point after
it. -/
theorem step_cases {s t : State} (h : step s = .next t) :
    (s.input.reset = true ∧ t = s.applyReset) ∨
    (s.input.reset = false ∧ s.halted = true ∧ s.sample = .next t) ∨
    (s.input.reset = false ∧ s.halted = false ∧
      ∃ u, exec s.fetch.1 s.fetch.2 = .next u ∧ u.sample = .next t) := by
  unfold step at h
  split at h
  · cases h
    exact .inl ⟨‹_›, rfl⟩
  · rename_i hr
    have hr' : s.input.reset = false := by simpa using hr
    split at h
    · exact .inr (.inl ⟨hr', ‹_›, h⟩)
    · rename_i hh
      refine .inr (.inr ⟨hr', by simpa using hh, ?_⟩)
      unfold andThen at h
      split at h
      · exact ⟨_, ‹_›, h⟩
      · cases h
      · cases h

end Machine

end Sys2Proof
end

