-- ==== Sys2Proof/Laws/PerInstr.lean ====
section
/-! SUPPORT. Statements about every instruction as syntax, one lemma per constructor. EncodedLength: an instruction's
bytes are as many as its length says, and its op code byte alone asks for that many (30_encoding.md R70). -/

namespace Sys2Proof.Laws.EncodedLength

/-- The encoding of a well-formed instruction has the instruction's length, and its first byte announces it (R70). -/
def Statement (i : Instr) : Prop :=
  i.WellFormed = true → (encode i).length = i.length ∧ (encode i).head?.map opLength = some i.length

theorem add (r : Reg) : Statement (.add r) := by
  intro _
  cases r <;> exact ⟨rfl, rfl⟩

theorem addM : Statement .addM := fun _ => ⟨rfl, rfl⟩

theorem adi (data : Byte) : Statement (.adi data) := fun _ => ⟨rfl, rfl⟩

theorem adc (r : Reg) : Statement (.adc r) := by
  intro _
  cases r <;> exact ⟨rfl, rfl⟩

theorem adcM : Statement .adcM := fun _ => ⟨rfl, rfl⟩

theorem aci (data : Byte) : Statement (.aci data) := fun _ => ⟨rfl, rfl⟩

theorem sub (r : Reg) : Statement (.sub r) := by
  intro _
  cases r <;> exact ⟨rfl, rfl⟩

theorem subM : Statement .subM := fun _ => ⟨rfl, rfl⟩

theorem sui (data : Byte) : Statement (.sui data) := fun _ => ⟨rfl, rfl⟩

theorem sbb (r : Reg) : Statement (.sbb r) := by
  intro _
  cases r <;> exact ⟨rfl, rfl⟩

theorem sbbM : Statement .sbbM := fun _ => ⟨rfl, rfl⟩

theorem sbi (data : Byte) : Statement (.sbi data) := fun _ => ⟨rfl, rfl⟩

theorem inr (r : Reg) : Statement (.inr r) := by
  intro _
  cases r <;> exact ⟨rfl, rfl⟩

theorem inrM : Statement .inrM := fun _ => ⟨rfl, rfl⟩

theorem dcr (r : Reg) : Statement (.dcr r) := by
  intro _
  cases r <;> exact ⟨rfl, rfl⟩

theorem dcrM : Statement .dcrM := fun _ => ⟨rfl, rfl⟩

theorem inx (rp : RegPair) : Statement (.inx rp) := by
  intro _
  cases rp <;> exact ⟨rfl, rfl⟩

theorem dcx (rp : RegPair) : Statement (.dcx rp) := by
  intro _
  cases rp <;> exact ⟨rfl, rfl⟩

theorem dad (rp : RegPair) : Statement (.dad rp) := by
  intro _
  cases rp <;> exact ⟨rfl, rfl⟩

theorem daa : Statement .daa := fun _ => ⟨rfl, rfl⟩

theorem ana (r : Reg) : Statement (.ana r) := by
  intro _
  cases r <;> exact ⟨rfl, rfl⟩

theorem anaM : Statement .anaM := fun _ => ⟨rfl, rfl⟩

theorem ani (data : Byte) : Statement (.ani data) := fun _ => ⟨rfl, rfl⟩

theorem xra (r : Reg) : Statement (.xra r) := by
  intro _
  cases r <;> exact ⟨rfl, rfl⟩

theorem xraM : Statement .xraM := fun _ => ⟨rfl, rfl⟩

theorem xri (data : Byte) : Statement (.xri data) := fun _ => ⟨rfl, rfl⟩

theorem ora (r : Reg) : Statement (.ora r) := by
  intro _
  cases r <;> exact ⟨rfl, rfl⟩

theorem oraM : Statement .oraM := fun _ => ⟨rfl, rfl⟩

theorem ori (data : Byte) : Statement (.ori data) := fun _ => ⟨rfl, rfl⟩

theorem cmp (r : Reg) : Statement (.cmp r) := by
  intro _
  cases r <;> exact ⟨rfl, rfl⟩

theorem cmpM : Statement .cmpM := fun _ => ⟨rfl, rfl⟩

theorem cpi (data : Byte) : Statement (.cpi data) := fun _ => ⟨rfl, rfl⟩

theorem cma : Statement .cma := fun _ => ⟨rfl, rfl⟩

theorem cmc : Statement .cmc := fun _ => ⟨rfl, rfl⟩

theorem stc : Statement .stc := fun _ => ⟨rfl, rfl⟩

theorem rlc : Statement .rlc := fun _ => ⟨rfl, rfl⟩

theorem rrc : Statement .rrc := fun _ => ⟨rfl, rfl⟩

theorem ral : Statement .ral := fun _ => ⟨rfl, rfl⟩

theorem rar : Statement .rar := fun _ => ⟨rfl, rfl⟩

theorem jmp (addr : Addr) : Statement (.jmp addr) := fun _ => ⟨rfl, rfl⟩

theorem jnz (addr : Addr) : Statement (.jnz addr) := fun _ => ⟨rfl, rfl⟩

theorem jz (addr : Addr) : Statement (.jz addr) := fun _ => ⟨rfl, rfl⟩

theorem jnc (addr : Addr) : Statement (.jnc addr) := fun _ => ⟨rfl, rfl⟩

theorem jc (addr : Addr) : Statement (.jc addr) := fun _ => ⟨rfl, rfl⟩

theorem jpo (addr : Addr) : Statement (.jpo addr) := fun _ => ⟨rfl, rfl⟩

theorem jpe (addr : Addr) : Statement (.jpe addr) := fun _ => ⟨rfl, rfl⟩

theorem jp (addr : Addr) : Statement (.jp addr) := fun _ => ⟨rfl, rfl⟩

theorem jm (addr : Addr) : Statement (.jm addr) := fun _ => ⟨rfl, rfl⟩

theorem call (addr : Addr) : Statement (.call addr) := fun _ => ⟨rfl, rfl⟩

theorem cnz (addr : Addr) : Statement (.cnz addr) := fun _ => ⟨rfl, rfl⟩

theorem cz (addr : Addr) : Statement (.cz addr) := fun _ => ⟨rfl, rfl⟩

theorem cnc (addr : Addr) : Statement (.cnc addr) := fun _ => ⟨rfl, rfl⟩

theorem cc (addr : Addr) : Statement (.cc addr) := fun _ => ⟨rfl, rfl⟩

theorem cpo (addr : Addr) : Statement (.cpo addr) := fun _ => ⟨rfl, rfl⟩

theorem cpe (addr : Addr) : Statement (.cpe addr) := fun _ => ⟨rfl, rfl⟩

theorem cp (addr : Addr) : Statement (.cp addr) := fun _ => ⟨rfl, rfl⟩

theorem cm (addr : Addr) : Statement (.cm addr) := fun _ => ⟨rfl, rfl⟩

theorem ret : Statement .ret := fun _ => ⟨rfl, rfl⟩

theorem rnz : Statement .rnz := fun _ => ⟨rfl, rfl⟩

theorem rz : Statement .rz := fun _ => ⟨rfl, rfl⟩

theorem rnc : Statement .rnc := fun _ => ⟨rfl, rfl⟩

theorem rc : Statement .rc := fun _ => ⟨rfl, rfl⟩

theorem rpo : Statement .rpo := fun _ => ⟨rfl, rfl⟩

theorem rpe : Statement .rpe := fun _ => ⟨rfl, rfl⟩

theorem rp : Statement .rp := fun _ => ⟨rfl, rfl⟩

theorem rm : Statement .rm := fun _ => ⟨rfl, rfl⟩

theorem rst (n : BitVec 3) : Statement (.rst n) := by
  intro _
  refine ⟨rfl, ?_⟩
  revert n
  decide

theorem pchl : Statement .pchl := fun _ => ⟨rfl, rfl⟩

theorem nop : Statement .nop := fun _ => ⟨rfl, rfl⟩

theorem hlt : Statement .hlt := fun _ => ⟨rfl, rfl⟩

theorem di : Statement .di := fun _ => ⟨rfl, rfl⟩

theorem ei : Statement .ei := fun _ => ⟨rfl, rfl⟩

theorem rim : Statement .rim := fun _ => ⟨rfl, rfl⟩

theorem sim : Statement .sim := fun _ => ⟨rfl, rfl⟩

theorem inPort (port : Byte) : Statement (.inPort port) := fun _ => ⟨rfl, rfl⟩

theorem outPort (port : Byte) : Statement (.outPort port) := fun _ => ⟨rfl, rfl⟩

theorem mov (dst src : Reg) : Statement (.mov dst src) := by
  intro _
  cases dst <;> cases src <;> exact ⟨rfl, rfl⟩

theorem movFromM (dst : Reg) : Statement (.movFromM dst) := by
  intro _
  cases dst <;> exact ⟨rfl, rfl⟩

theorem movToM (src : Reg) : Statement (.movToM src) := by
  intro _
  cases src <;> exact ⟨rfl, rfl⟩

theorem mvi (r : Reg) (data : Byte) : Statement (.mvi r data) := by
  intro _
  cases r <;> exact ⟨rfl, rfl⟩

theorem mviM (data : Byte) : Statement (.mviM data) := fun _ => ⟨rfl, rfl⟩

theorem lxi (rp : RegPair) (data : Addr) : Statement (.lxi rp data) := by
  intro _
  cases rp <;> exact ⟨rfl, rfl⟩

theorem lda (addr : Addr) : Statement (.lda addr) := fun _ => ⟨rfl, rfl⟩

theorem sta (addr : Addr) : Statement (.sta addr) := fun _ => ⟨rfl, rfl⟩

theorem lhld (addr : Addr) : Statement (.lhld addr) := fun _ => ⟨rfl, rfl⟩

theorem shld (addr : Addr) : Statement (.shld addr) := fun _ => ⟨rfl, rfl⟩

theorem ldax (ip : IndexPair) : Statement (.ldax ip) := by
  intro _
  cases ip <;> exact ⟨rfl, rfl⟩

theorem stax (ip : IndexPair) : Statement (.stax ip) := by
  intro _
  cases ip <;> exact ⟨rfl, rfl⟩

theorem xchg : Statement .xchg := fun _ => ⟨rfl, rfl⟩

theorem push (p : StackPair) : Statement (.push p) := by
  intro _
  cases p <;> exact ⟨rfl, rfl⟩

theorem pushPsw : Statement .pushPsw := fun _ => ⟨rfl, rfl⟩

theorem pop (p : StackPair) : Statement (.pop p) := by
  intro _
  cases p <;> exact ⟨rfl, rfl⟩

theorem popPsw : Statement .popPsw := fun _ => ⟨rfl, rfl⟩

theorem xthl : Statement .xthl := fun _ => ⟨rfl, rfl⟩

theorem sphl : Statement .sphl := fun _ => ⟨rfl, rfl⟩

theorem undefinedOp (op : Byte) : Statement (.undefinedOp op) := by
  intro h
  simp only [Instr.WellFormed, undefinedOpcodes, List.contains_eq_mem, List.mem_cons, List.not_mem_nil, or_false,
    decide_eq_true_eq] at h
  rcases h with h | h | h | h | h | h | h | h | h | h <;> subst h <;> exact ⟨rfl, rfl⟩

end Sys2Proof.Laws.EncodedLength
end

