-- ==== Sys2Proof/Tests/Slice0.lean ====
section
/-! SUPPORT. Tests: ill-formed terms refused, every constructor decoded from bytes written out from the encoding
tables, one step of each instruction on the vectors of 95_test_vectors.md (each named by its vector), the sampling
vectors I1 to I16, and for every statement of Obligations.lean that has hypotheses a state that meets them. -/

namespace Sys2Proof.Tests

open Sys2Proof.Machine

/-! ### Helpers -/

/-- Registers A B C D E H L all 00H. -/
def noRegs : Regs := { a := 0, b := 0, c := 0, d := 0, e := 0, h := 0, l := 0 }

/-- Flags S Z AC P CY all 0. -/
def noFlags : Flags := { s := false, z := false, ac := false, p := false, cy := false }

/-- The start state of a vector: the reset state but for registers, flags, SP, pc and the bytes listed. -/
def machine (regs : Regs) (flags : Flags) (sp pc : Addr) (bytes : Memory) : State :=
  { State.reset with regs := regs, flags := flags, sp := sp, pc := pc, mem := bytes }

/-- What one reads in the next state, if there is one. -/
def inNext {α : Type} (o : Outcome) (read : State → α) : Option α :=
  match o with
  | .next t => some (read t)
  | .fault _ => none
  | .refused _ => none

/-- What one reads after one step, if there is a next state. -/
def after {α : Type} (s : State) (read : State → α) : Option α := inNext (step s) read

/-- The fault of an outcome, if it is one. -/
def faultOf (o : Outcome) : Option Fault :=
  match o with
  | .fault f => some f
  | .next _ => none
  | .refused _ => none

/-- The refusal of an outcome, if it is one. -/
def refusalOf (o : Outcome) : Option Refusal :=
  match o with
  | .refused r => some r
  | .next _ => none
  | .fault _ => none

/-- What a list of bytes decodes to, with what is left over. -/
def decoded (bytes : List Byte) : Option (Instr × List Byte) := (decode bytes).toOption

/-! ### Well-formedness -/

theorem test_wellFormed_refuses_nop_as_undefined : (Instr.undefinedOp 0x00).WellFormed = false := by decide

theorem test_wellFormed_refuses_hlt_as_undefined : (Instr.undefinedOp 0x76).WellFormed = false := by decide

theorem test_wellFormed_accepts_the_ten :
    [0x08, 0x10, 0x18, 0x28, 0x38, 0xCB, 0xD9, 0xDD, 0xED, 0xFD].map
      (fun op => (Instr.undefinedOp op).WellFormed) = List.replicate 10 true := by decide

/-! ### Decoding: every constructor, from bytes written out from 30_encoding.md R72 to R77 -/

theorem test_decode_arithmetic :
    [[0x81], [0x86], [0xC6, 0x42], [0x8A], [0x8E], [0xCE, 0x42], [0x93], [0x96], [0xD6, 0x01], [0x9C], [0x9E],
     [0xDE, 0x01], [0x2C], [0x34], [0x3D], [0x35], [0x33], [0x1B], [0x29], [0x27]].map decoded =
    ([.add .c, .addM, .adi 0x42, .adc .d, .adcM, .aci 0x42, .sub .e, .subM, .sui 0x01, .sbb .h, .sbbM,
      .sbi 0x01, .inr .l, .inrM, .dcr .a, .dcrM, .inx .sp, .dcx .de, .dad .hl, .daa] : List Instr).map
      (fun i => some (i, [])) := by decide

theorem test_decode_logical :
    [[0xA1], [0xA6], [0xE6, 0x0F], [0xAF], [0xAE], [0xEE, 0x81], [0xB2], [0xB6], [0xF6, 0x0F], [0xBB], [0xBE],
     [0xFE, 0x40], [0x2F], [0x3F], [0x37], [0x07], [0x0F], [0x17], [0x1F]].map decoded =
    ([.ana .c, .anaM, .ani 0x0F, .xra .a, .xraM, .xri 0x81, .ora .d, .oraM, .ori 0x0F, .cmp .e, .cmpM,
      .cpi 0x40, .cma, .cmc, .stc, .rlc, .rrc, .ral, .rar] : List Instr).map
      (fun i => some (i, [])) := by decide

theorem test_decode_jumps_and_calls :
    [[0xC3, 0x34, 0x12], [0xC2, 0x34, 0x12], [0xCA, 0x34, 0x12], [0xD2, 0x34, 0x12], [0xDA, 0x34, 0x12],
     [0xE2, 0x34, 0x12], [0xEA, 0x34, 0x12], [0xF2, 0x34, 0x12], [0xFA, 0x34, 0x12],
     [0xCD, 0x34, 0x12], [0xC4, 0x34, 0x12], [0xCC, 0x34, 0x12], [0xD4, 0x34, 0x12], [0xDC, 0x34, 0x12],
     [0xE4, 0x34, 0x12], [0xEC, 0x34, 0x12], [0xF4, 0x34, 0x12], [0xFC, 0x34, 0x12]].map decoded =
    ([.jmp 0x1234, .jnz 0x1234, .jz 0x1234, .jnc 0x1234, .jc 0x1234, .jpo 0x1234, .jpe 0x1234, .jp 0x1234,
      .jm 0x1234, .call 0x1234, .cnz 0x1234, .cz 0x1234, .cnc 0x1234, .cc 0x1234, .cpo 0x1234, .cpe 0x1234,
      .cp 0x1234, .cm 0x1234] : List Instr).map (fun i => some (i, [])) := by decide

theorem test_decode_returns_and_restarts :
    [[0xC9], [0xC0], [0xC8], [0xD0], [0xD8], [0xE0], [0xE8], [0xF0], [0xF8], [0xDF], [0xE9]].map decoded =
    ([.ret, .rnz, .rz, .rnc, .rc, .rpo, .rpe, .rp, .rm, .rst 3, .pchl] : List Instr).map
      (fun i => some (i, [])) := by decide

theorem test_decode_control_and_io :
    [[0x00], [0x76], [0xF3], [0xFB], [0x20], [0x30], [0xDB, 0x10], [0xD3, 0x01]].map decoded =
    ([.nop, .hlt, .di, .ei, .rim, .sim, .inPort 0x10, .outPort 0x01] : List Instr).map
      (fun i => some (i, [])) := by decide

theorem test_decode_transfer :
    [[0x41], [0x5E], [0x74], [0x0E, 0x5A], [0x36, 0xFF], [0x21, 0x00, 0x80], [0x3A, 0x50, 0x20],
     [0x32, 0x50, 0x20], [0x2A, 0x50, 0x20], [0x22, 0x50, 0x20], [0x1A], [0x02], [0xEB]].map decoded =
    ([.mov .b .c, .movFromM .e, .movToM .h, .mvi .c 0x5A, .mviM 0xFF, .lxi .hl 0x8000, .lda 0x2050,
      .sta 0x2050, .lhld 0x2050, .shld 0x2050, .ldax .de, .stax .bc, .xchg] : List Instr).map
      (fun i => some (i, [])) := by decide

theorem test_decode_stack_and_undefined :
    [[0xD5], [0xF5], [0xE1], [0xF1], [0xE3], [0xF9], [0xCB]].map decoded =
    ([.push .de, .pushPsw, .pop .hl, .popPsw, .xthl, .sphl, .undefinedOp 0xCB] : List Instr).map
      (fun i => some (i, [])) := by decide

/-- R82: the same bytes entered at different offsets. -/
theorem test_decode_at_offsets :
    decoded [0x21, 0x76, 0x00] = some (.lxi .hl 0x0076, []) ∧ decoded [0x76, 0x00] = some (.hlt, [0x00]) ∧
    decoded [0xC3, 0x34] = none ∧ decoded [] = none := by decide

theorem test_decodeTableWord :
    decodeTableWord 8 0x76 = some .hlt ∧ decodeTableWord 16 0xFF3E = some (.mvi .a 0xFF) ∧
    decodeTableWord 24 0x123422 = some (.shld 0x1234) ∧ decodeTableWord 8 0xC3 = some (.jmp 0x0000) := by decide

/-! ### One step of each instruction -/

theorem test_V2_add :
    after (machine { noRegs with a := 0x7F, b := 0x01 } noFlags 0 0 [(0x0000, 0x80)])
      (fun t => (t.regs.a, t.flags, t.pc)) =
    some (0x80, ⟨true, false, true, false, false⟩, 0x0001) := by decide

theorem test_V5_add :
    after (machine { noRegs with a := 0x2E, h := 0x20, l := 0x50 } noFlags 0 0 [(0x0000, 0x86), (0x2050, 0x6C)])
      (fun t => (t.regs.a, t.flags, t.pc)) =
    some (0x9A, ⟨true, false, true, true, false⟩, 0x0001) := by decide

theorem test_V6_adi :
    after (machine { noRegs with a := 0x01 } noFlags 0 0 [(0x0000, 0xC6), (0x0001, 0xFF)])
      (fun t => (t.regs.a, t.flags, t.pc)) =
    some (0x00, ⟨false, true, true, true, true⟩, 0x0002) := by decide

theorem test_V7_adc :
    after (machine { noRegs with a := 0x3D, c := 0x42 } { noFlags with cy := true } 0 0 [(0x0000, 0x89)])
      (fun t => (t.regs.a, t.flags, t.pc)) =
    some (0x80, ⟨true, false, true, false, false⟩, 0x0001) := by decide

theorem test_V10_adc :
    after (machine { noRegs with a := 0x0F, h := 0x20, l := 0x50 } { noFlags with cy := true } 0 0 [(0x0000, 0x8E)])
      (fun t => (t.regs.a, t.flags, t.pc)) =
    some (0x10, ⟨false, false, true, false, false⟩, 0x0001) := by decide

theorem test_V11_aci :
    after (machine { noRegs with a := 0xFF } { noFlags with cy := true } 0 0 [(0x0000, 0xCE)])
      (fun t => (t.regs.a, t.flags, t.pc)) =
    some (0x00, ⟨false, true, true, true, true⟩, 0x0002) := by decide

theorem test_V13_sub :
    after (machine { noRegs with b := 0x01 } noFlags 0 0 [(0x0000, 0x90)])
      (fun t => (t.regs.a, t.flags, t.pc)) =
    some (0xFF, ⟨true, false, false, true, true⟩, 0x0001) := by decide

theorem test_V16_sub :
    after (machine { noRegs with a := 0x10, h := 0x20, l := 0x50 } noFlags 0 0 [(0x0000, 0x96), (0x2050, 0x01)])
      (fun t => (t.regs.a, t.flags, t.pc)) =
    some (0x0F, ⟨false, false, false, true, false⟩, 0x0001) := by decide

theorem test_V17_sui :
    after (machine noRegs noFlags 0 0 [(0x0000, 0xD6), (0x0001, 0x01)])
      (fun t => (t.regs.a, t.flags, t.pc)) =
    some (0xFF, ⟨true, false, false, true, true⟩, 0x0002) := by decide

theorem test_V18_sbb :
    after (machine { noRegs with a := 0x04, l := 0x02 } { noFlags with cy := true } 0 0 [(0x0000, 0x9D)])
      (fun t => (t.regs.a, t.flags, t.pc)) =
    some (0x01, ⟨false, false, true, false, false⟩, 0x0001) := by decide

theorem test_V19_sbb :
    after (machine { noRegs with b := 0xFF } { noFlags with cy := true } 0 0 [(0x0000, 0x98)])
      (fun t => (t.regs.a, t.flags, t.pc)) =
    some (0x00, ⟨false, true, false, true, true⟩, 0x0001) := by decide

theorem test_V21_sbb :
    after (machine { noRegs with a := 0x50, h := 0x20, l := 0x50 } { noFlags with cy := true } 0 0 [(0x0000, 0x9E), (0x2050, 0x4F)])
      (fun t => (t.regs.a, t.flags, t.pc)) =
    some (0x00, ⟨false, true, false, true, false⟩, 0x0001) := by decide

theorem test_V22_sbi :
    after (machine noRegs { noFlags with cy := true } 0 0 [(0x0000, 0xDE)])
      (fun t => (t.regs.a, t.flags, t.pc)) =
    some (0xFF, ⟨true, false, false, true, true⟩, 0x0002) := by decide

theorem test_V24_inr :
    after (machine { noRegs with b := 0xFF } { noFlags with cy := true } 0 0 [(0x0000, 0x04)])
      (fun t => (t.regs.b, t.flags, t.pc)) =
    some (0x00, ⟨false, true, true, true, true⟩, 0x0001) := by decide

theorem test_V27_inr :
    after (machine { noRegs with h := 0x20, l := 0x50 } noFlags 0 0 [(0x0000, 0x34), (0x2050, 0x99)])
      (fun t => (t.flags, t.peek 0x2050, t.pc)) =
    some (⟨true, false, false, true, false⟩, 0x9A, 0x0001) := by decide

theorem test_V28_dcr :
    after (machine noRegs noFlags 0 0 [(0x0000, 0x0D)])
      (fun t => (t.regs.c, t.flags, t.pc)) =
    some (0xFF, ⟨true, false, false, true, false⟩, 0x0001) := by decide

theorem test_V32_dcr :
    after (machine { noRegs with h := 0x20, l := 0x50 } noFlags 0 0 [(0x0000, 0x35)])
      (fun t => (t.flags, t.peek 0x2050, t.pc)) =
    some (⟨true, false, false, true, false⟩, 0xFF, 0x0001) := by decide

theorem test_V33_inx :
    after (machine { noRegs with h := 0xFF, l := 0xFF } noFlags 0 0 [(0x0000, 0x23)])
      (fun t => ((t.regs.h, t.regs.l), t.flags, t.pc)) =
    some ((0x00, 0x00), ⟨false, false, false, false, false⟩, 0x0001) := by decide

theorem test_V35_inx :
    after (machine noRegs noFlags 0xFFFF 0 [(0x0000, 0x33)])
      (fun t => (t.sp, t.pc)) =
    some (0x0000, 0x0001) := by decide

theorem test_V36_dcx :
    after (machine noRegs noFlags 0 0 [(0x0000, 0x1B)])
      (fun t => ((t.regs.d, t.regs.e), t.flags, t.pc)) =
    some ((0xFF, 0xFF), ⟨false, false, false, false, false⟩, 0x0001) := by decide

theorem test_V39_dad :
    after (machine { noRegs with b := 0x33, c := 0x9F, h := 0xA1, l := 0x7B } { noFlags with s := true, z := true } 0 0 [(0x0000, 0x09)])
      (fun t => ((t.regs.h, t.regs.l), t.flags, t.pc)) =
    some ((0xD5, 0x1A), ⟨true, true, false, false, false⟩, 0x0001) := by decide

theorem test_V40_dad :
    after (machine { noRegs with e := 0x01, h := 0xFF, l := 0xFF } noFlags 0 0 [(0x0000, 0x19)])
      (fun t => ((t.regs.h, t.regs.l), t.flags, t.pc)) =
    some ((0x00, 0x00), ⟨false, false, false, false, true⟩, 0x0001) := by decide

theorem test_V43_daa :
    after (machine { noRegs with a := 0x9B } noFlags 0 0 [(0x0000, 0x27)])
      (fun t => (t.regs.a, t.flags, t.pc)) =
    some (0x01, ⟨false, false, true, false, true⟩, 0x0001) := by decide

theorem test_V49_daa :
    after (machine { noRegs with a := 0xFF } noFlags 0 0 [(0x0000, 0x27)])
      (fun t => (t.regs.a, t.flags, t.pc)) =
    some (0x65, ⟨false, false, true, true, true⟩, 0x0001) := by decide

theorem test_V53_ana :
    after (machine { noRegs with a := 0xFC, b := 0x0F } { noFlags with cy := true } 0 0 [(0x0000, 0xA0)])
      (fun t => (t.regs.a, t.flags, t.pc)) =
    some (0x0C, ⟨false, false, true, true, false⟩, 0x0001) := by decide

theorem test_V56_ana :
    after (machine { noRegs with a := 0xF0, h := 0x20, l := 0x50 } noFlags 0 0 [(0x0000, 0xA6), (0x2050, 0x0F)])
      (fun t => (t.regs.a, t.flags, t.pc)) =
    some (0x00, ⟨false, true, true, true, false⟩, 0x0001) := by decide

theorem test_V57_ani :
    after (machine { noRegs with a := 0x3A } { noFlags with cy := true } 0 0 [(0x0000, 0xE6), (0x0001, 0x0F)])
      (fun t => (t.regs.a, t.flags, t.pc)) =
    some (0x0A, ⟨false, false, true, true, false⟩, 0x0002) := by decide

theorem test_V58_xra :
    after (machine { noRegs with a := 0x5C } { noFlags with ac := true, cy := true } 0 0 [(0x0000, 0xAF)])
      (fun t => (t.regs.a, t.flags, t.pc)) =
    some (0x00, ⟨false, true, false, true, false⟩, 0x0001) := by decide

theorem test_V60_xra :
    after (machine { noRegs with a := 0x5C, h := 0x20, l := 0x50 } noFlags 0 0 [(0x0000, 0xAE), (0x2050, 0x78)])
      (fun t => (t.regs.a, t.flags, t.pc)) =
    some (0x24, ⟨false, false, false, true, false⟩, 0x0001) := by decide

theorem test_V61_xri :
    after (machine { noRegs with a := 0x3B } { noFlags with cy := true } 0 0 [(0x0000, 0xEE), (0x0001, 0x81)])
      (fun t => (t.regs.a, t.flags, t.pc)) =
    some (0xBA, ⟨true, false, false, false, false⟩, 0x0002) := by decide

theorem test_V62_ora :
    after (machine { noRegs with a := 0x33, c := 0x0F } { noFlags with ac := true, cy := true } 0 0 [(0x0000, 0xB1)])
      (fun t => (t.regs.a, t.flags, t.pc)) =
    some (0x3F, ⟨false, false, false, true, false⟩, 0x0001) := by decide

theorem test_V64_ora :
    after (machine { noRegs with h := 0x20, l := 0x50 } noFlags 0 0 [(0x0000, 0xB6), (0x2050, 0x80)])
      (fun t => (t.regs.a, t.flags, t.pc)) =
    some (0x80, ⟨true, false, false, false, false⟩, 0x0001) := by decide

theorem test_V65_ori :
    after (machine { noRegs with a := 0xB5 } noFlags 0 0 [(0x0000, 0xF6), (0x0001, 0x0F)])
      (fun t => (t.regs.a, t.flags, t.pc)) =
    some (0xBF, ⟨true, false, false, false, false⟩, 0x0002) := by decide

theorem test_V67_cmp :
    after (machine { noRegs with a := 0x02, e := 0x05 } noFlags 0 0 [(0x0000, 0xBB)])
      (fun t => (t.regs.a, t.flags, t.pc)) =
    some (0x02, ⟨true, false, false, false, true⟩, 0x0001) := by decide

theorem test_V70_cmp :
    after (machine { noRegs with a := 0x7F, b := 0x80 } noFlags 0 0 [(0x0000, 0xB8)])
      (fun t => (t.regs.a, t.flags, t.pc)) =
    some (0x7F, ⟨true, false, true, true, true⟩, 0x0001) := by decide

theorem test_V71_cmp :
    after (machine { noRegs with h := 0x20, l := 0x50 } noFlags 0 0 [(0x0000, 0xBE), (0x2050, 0xFF)])
      (fun t => (t.regs.a, t.flags, t.peek 0x2050, t.pc)) =
    some (0x00, ⟨false, false, false, false, true⟩, 0xFF, 0x0001) := by decide

theorem test_V72_cpi :
    after (machine { noRegs with a := 0x4A } noFlags 0 0 [(0x0000, 0xFE), (0x0001, 0x40)])
      (fun t => (t.regs.a, t.flags, t.pc)) =
    some (0x4A, ⟨false, false, true, true, false⟩, 0x0002) := by decide

theorem test_V74_cma :
    after (machine { noRegs with a := 0x51 } { noFlags with z := true, cy := true } 0 0 [(0x0000, 0x2F)])
      (fun t => (t.regs.a, t.flags, t.pc)) =
    some (0xAE, ⟨false, true, false, false, true⟩, 0x0001) := by decide

theorem test_V76_cmc :
    after (machine noRegs { noFlags with z := true } 0 0 [(0x0000, 0x3F)])
      (fun t => (t.flags, t.pc)) =
    some (⟨false, true, false, false, true⟩, 0x0001) := by decide

theorem test_V79_stc :
    after (machine noRegs { noFlags with s := true, cy := true } 0 0 [(0x0000, 0x37)])
      (fun t => (t.flags, t.pc)) =
    some (⟨true, false, false, false, true⟩, 0x0001) := by decide

theorem test_V80_rlc :
    after (machine { noRegs with a := 0xF2 } noFlags 0 0 [(0x0000, 0x07)])
      (fun t => (t.regs.a, t.flags, t.pc)) =
    some (0xE5, ⟨false, false, false, false, true⟩, 0x0001) := by decide

theorem test_V83_rrc :
    after (machine { noRegs with a := 0xF2 } { noFlags with cy := true } 0 0 [(0x0000, 0x0F)])
      (fun t => (t.regs.a, t.flags, t.pc)) =
    some (0x79, ⟨false, false, false, false, false⟩, 0x0001) := by decide

theorem test_V86_ral :
    after (machine noRegs { noFlags with cy := true } 0 0 [(0x0000, 0x17)])
      (fun t => (t.regs.a, t.flags, t.pc)) =
    some (0x01, ⟨false, false, false, false, false⟩, 0x0001) := by decide

theorem test_V88_rar :
    after (machine { noRegs with a := 0x6A } { noFlags with cy := true } 0 0 [(0x0000, 0x1F)])
      (fun t => (t.regs.a, t.flags, t.pc)) =
    some (0xB5, ⟨false, false, false, false, false⟩, 0x0001) := by decide

theorem test_V90_jmp :
    after (machine noRegs noFlags 0 0x0100 [(0x0100, 0xC3), (0x0101, 0x50), (0x0102, 0x20)])
      (fun t => (t.pc, t.tstates)) =
    some (0x2050, 10) := by decide

theorem test_V92_jnz :
    after (machine noRegs noFlags 0 0x0100 [(0x0100, 0xC2), (0x0101, 0x50), (0x0102, 0x20)])
      (fun t => (t.pc, t.tstates)) =
    some (0x2050, 10) := by decide

theorem test_V93_jnz :
    after (machine noRegs { noFlags with z := true } 0 0x0100 [(0x0100, 0xC2), (0x0101, 0x50), (0x0102, 0x20)])
      (fun t => (t.pc, t.tstates)) =
    some (0x0103, 7) := by decide

theorem test_V94_jz :
    after (machine noRegs { noFlags with z := true } 0 0x0100 [(0x0100, 0xCA), (0x0101, 0x50), (0x0102, 0x20)])
      (fun t => (t.pc, t.tstates)) =
    some (0x2050, 10) := by decide

theorem test_V95_jz :
    after (machine noRegs noFlags 0 0x0100 [(0x0100, 0xCA), (0x0101, 0x50), (0x0102, 0x20)])
      (fun t => (t.pc, t.tstates)) =
    some (0x0103, 7) := by decide

theorem test_V96_jnc :
    after (machine noRegs noFlags 0 0x0100 [(0x0100, 0xD2), (0x0101, 0x50), (0x0102, 0x20)])
      (fun t => t.pc) =
    some 0x2050 := by decide

theorem test_V97_jnc :
    after (machine noRegs { noFlags with cy := true } 0 0x0100 [(0x0100, 0xD2), (0x0101, 0x50), (0x0102, 0x20)])
      (fun t => t.pc) =
    some 0x0103 := by decide

theorem test_V98_jc :
    after (machine noRegs { noFlags with cy := true } 0 0x0100 [(0x0100, 0xDA), (0x0101, 0x50), (0x0102, 0x20)])
      (fun t => t.pc) =
    some 0x2050 := by decide

theorem test_V99_jc :
    after (machine noRegs noFlags 0 0x0100 [(0x0100, 0xDA), (0x0101, 0x50), (0x0102, 0x20)])
      (fun t => t.pc) =
    some 0x0103 := by decide

theorem test_V100_jpo :
    after (machine noRegs noFlags 0 0x0100 [(0x0100, 0xE2), (0x0101, 0x50), (0x0102, 0x20)])
      (fun t => t.pc) =
    some 0x2050 := by decide

theorem test_V101_jpo :
    after (machine noRegs { noFlags with p := true } 0 0x0100 [(0x0100, 0xE2), (0x0101, 0x50), (0x0102, 0x20)])
      (fun t => t.pc) =
    some 0x0103 := by decide

theorem test_V102_jpe :
    after (machine noRegs { noFlags with p := true } 0 0x0100 [(0x0100, 0xEA), (0x0101, 0x50), (0x0102, 0x20)])
      (fun t => t.pc) =
    some 0x2050 := by decide

theorem test_V103_jpe :
    after (machine noRegs noFlags 0 0x0100 [(0x0100, 0xEA), (0x0101, 0x50), (0x0102, 0x20)])
      (fun t => t.pc) =
    some 0x0103 := by decide

theorem test_V104_jp :
    after (machine noRegs noFlags 0 0x0100 [(0x0100, 0xF2), (0x0101, 0x50), (0x0102, 0x20)])
      (fun t => t.pc) =
    some 0x2050 := by decide

theorem test_V105_jp :
    after (machine noRegs { noFlags with s := true } 0 0x0100 [(0x0100, 0xF2), (0x0101, 0x50), (0x0102, 0x20)])
      (fun t => t.pc) =
    some 0x0103 := by decide

theorem test_V106_jm :
    after (machine noRegs { noFlags with s := true } 0 0x0100 [(0x0100, 0xFA), (0x0101, 0x50), (0x0102, 0x20)])
      (fun t => t.pc) =
    some 0x2050 := by decide

theorem test_V107_jm :
    after (machine noRegs noFlags 0 0x0100 [(0x0100, 0xFA), (0x0101, 0x50), (0x0102, 0x20)])
      (fun t => t.pc) =
    some 0x0103 := by decide

theorem test_V108_call :
    after (machine noRegs noFlags 0x2100 0x1234 [(0x1234, 0xCD), (0x1235, 0x50), (0x1236, 0x20)])
      (fun t => (t.sp, t.peek 0x20FE, t.peek 0x20FF, t.pc, t.tstates)) =
    some (0x20FE, 0x37, 0x12, 0x2050, 18) := by decide

theorem test_V109_call :
    after (machine noRegs noFlags 0x0001 0x1234 [(0x1234, 0xCD), (0x1235, 0x40)])
      (fun t => (t.sp, t.peek 0x0000, t.peek 0xFFFF, t.pc, t.tstates)) =
    some (0xFFFF, 0x12, 0x37, 0x0040, 18) := by decide

theorem test_V111_cnz :
    after (machine noRegs noFlags 0x2100 0x1234 [(0x1234, 0xC4), (0x1235, 0x50), (0x1236, 0x20)])
      (fun t => (t.sp, t.peek 0x20FE, t.peek 0x20FF, t.pc, t.tstates)) =
    some (0x20FE, 0x37, 0x12, 0x2050, 18) := by decide

theorem test_V112_cnz :
    after (machine noRegs { noFlags with z := true } 0x2100 0x1234 [(0x1234, 0xC4), (0x1235, 0x50), (0x1236, 0x20)])
      (fun t => (t.sp, t.pc, t.tstates)) =
    some (0x2100, 0x1237, 9) := by decide

theorem test_V113_cz :
    after (machine noRegs { noFlags with z := true } 0x2100 0x1234 [(0x1234, 0xCC), (0x1235, 0x50), (0x1236, 0x20)])
      (fun t => (t.sp, t.peek 0x20FE, t.peek 0x20FF, t.pc, t.tstates)) =
    some (0x20FE, 0x37, 0x12, 0x2050, 18) := by decide

theorem test_V114_cnc :
    after (machine noRegs { noFlags with cy := true } 0x2100 0x1234 [(0x1234, 0xD4), (0x1235, 0x50), (0x1236, 0x20)])
      (fun t => (t.sp, t.pc, t.tstates)) =
    some (0x2100, 0x1237, 9) := by decide

theorem test_V115_cc :
    after (machine noRegs { noFlags with cy := true } 0x2100 0x1234 [(0x1234, 0xDC), (0x1235, 0x50), (0x1236, 0x20)])
      (fun t => (t.sp, t.peek 0x20FE, t.peek 0x20FF, t.pc, t.tstates)) =
    some (0x20FE, 0x37, 0x12, 0x2050, 18) := by decide

theorem test_V116_cpo :
    after (machine noRegs { noFlags with p := true } 0x2100 0x1234 [(0x1234, 0xE4), (0x1235, 0x50), (0x1236, 0x20)])
      (fun t => (t.sp, t.pc, t.tstates)) =
    some (0x2100, 0x1237, 9) := by decide

theorem test_V117_cpe :
    after (machine noRegs { noFlags with p := true } 0x2100 0x1234 [(0x1234, 0xEC), (0x1235, 0x50), (0x1236, 0x20)])
      (fun t => (t.sp, t.peek 0x20FE, t.peek 0x20FF, t.pc, t.tstates)) =
    some (0x20FE, 0x37, 0x12, 0x2050, 18) := by decide

theorem test_V118_cp :
    after (machine noRegs { noFlags with s := true } 0x2100 0x1234 [(0x1234, 0xF4), (0x1235, 0x50), (0x1236, 0x20)])
      (fun t => (t.sp, t.pc, t.tstates)) =
    some (0x2100, 0x1237, 9) := by decide

theorem test_V119_cm :
    after (machine noRegs { noFlags with s := true } 0x2100 0x1234 [(0x1234, 0xFC), (0x1235, 0x50), (0x1236, 0x20)])
      (fun t => (t.sp, t.peek 0x20FE, t.peek 0x20FF, t.pc, t.tstates)) =
    some (0x20FE, 0x37, 0x12, 0x2050, 18) := by decide

theorem test_V120_ret :
    after (machine noRegs noFlags 0x20FE 0x2050 [(0x2050, 0xC9), (0x20FE, 0x37), (0x20FF, 0x12)])
      (fun t => (t.sp, t.pc, t.tstates)) =
    some (0x2100, 0x1237, 10) := by decide

theorem test_V121_ret :
    after (machine noRegs noFlags 0xFFFF 0x2050 [(0x0000, 0x12), (0x2050, 0xC9), (0xFFFF, 0x37)])
      (fun t => (t.sp, t.pc)) =
    some (0x0001, 0x1237) := by decide

theorem test_V122_rnz :
    after (machine noRegs noFlags 0x20FE 0x2050 [(0x2050, 0xC0), (0x20FE, 0x37), (0x20FF, 0x12)])
      (fun t => (t.sp, t.pc, t.tstates)) =
    some (0x2100, 0x1237, 12) := by decide

theorem test_V123_rnz :
    after (machine noRegs { noFlags with z := true } 0x20FE 0x2050 [(0x2050, 0xC0), (0x20FE, 0x37), (0x20FF, 0x12)])
      (fun t => (t.sp, t.pc, t.tstates)) =
    some (0x20FE, 0x2051, 6) := by decide

theorem test_V124_rz :
    after (machine noRegs { noFlags with z := true } 0x20FE 0x2050 [(0x2050, 0xC8), (0x20FE, 0x37), (0x20FF, 0x12)])
      (fun t => (t.sp, t.pc)) =
    some (0x2100, 0x1237) := by decide

theorem test_V125_rnc :
    after (machine noRegs { noFlags with cy := true } 0x20FE 0x2050 [(0x2050, 0xD0), (0x20FE, 0x37), (0x20FF, 0x12)])
      (fun t => (t.sp, t.pc)) =
    some (0x20FE, 0x2051) := by decide

theorem test_V126_rc :
    after (machine noRegs { noFlags with cy := true } 0x20FE 0x2050 [(0x2050, 0xD8), (0x20FE, 0x37), (0x20FF, 0x12)])
      (fun t => (t.sp, t.pc)) =
    some (0x2100, 0x1237) := by decide

theorem test_V127_rpo :
    after (machine noRegs noFlags 0x20FE 0x2050 [(0x2050, 0xE0), (0x20FE, 0x37), (0x20FF, 0x12)])
      (fun t => (t.sp, t.pc)) =
    some (0x2100, 0x1237) := by decide

theorem test_V128_rpe :
    after (machine noRegs noFlags 0x20FE 0x2050 [(0x2050, 0xE8), (0x20FE, 0x37), (0x20FF, 0x12)])
      (fun t => (t.sp, t.pc)) =
    some (0x20FE, 0x2051) := by decide

theorem test_V129_rp :
    after (machine noRegs noFlags 0x20FE 0x2050 [(0x2050, 0xF0), (0x20FE, 0x37), (0x20FF, 0x12)])
      (fun t => (t.sp, t.pc)) =
    some (0x2100, 0x1237) := by decide

theorem test_V130_rm :
    after (machine noRegs noFlags 0x20FE 0x2050 [(0x2050, 0xF8), (0x20FE, 0x37), (0x20FF, 0x12)])
      (fun t => (t.sp, t.pc)) =
    some (0x20FE, 0x2051) := by decide

theorem test_V139_rst :
    after (machine noRegs noFlags 0x2100 0xFFFF [(0xFFFF, 0xFF)])
      (fun t => (t.sp, t.peek 0x20FE, t.peek 0x20FF, t.pc, t.tstates)) =
    some (0x20FE, 0x00, 0x00, 0x0038, 12) := by decide

theorem test_V140_pchl :
    after (machine { noRegs with h := 0x41, l := 0x3E } noFlags 0 0x0100 [(0x0100, 0xE9)])
      (fun t => ((t.regs.h, t.regs.l), t.pc, t.tstates)) =
    some ((0x41, 0x3E), 0x413E, 6) := by decide

theorem test_V141_nop :
    after (machine { noRegs with a := 0x5A } { noFlags with z := true, cy := true } 0 0x0100 [])
      (fun t => (t.regs.a, t.flags, t.pc, t.tstates)) =
    some (0x5A, ⟨false, true, false, false, true⟩, 0x0101, 4) := by decide

theorem test_V142_nop :
    after (machine noRegs noFlags 0 0xFFFF [])
      (fun t => t.pc) =
    some 0x0000 := by decide

theorem test_V143_hlt :
    after (machine noRegs noFlags 0 0x0100 [(0x0100, 0x76)])
      (fun t => (t.halted, t.pc, t.tstates)) =
    some (true, 0x0101, 5) := by decide

theorem test_V144_di :
    after ({ machine noRegs noFlags 0 0x0100 [(0x0100, 0xF3)] with inte := true })
      (fun t => (t.inte, (t.m75, t.m65, t.m55), (t.r75, t.sod, t.eiInhibit), t.pc)) =
    some (false, (true, true, true), (false, false, false), 0x0101) := by decide

theorem test_V145_ei :
    after ({ machine noRegs noFlags 0 0x0100 [(0x0100, 0xFB)] with inte := false })
      (fun t => (t.inte, (t.m75, t.m65, t.m55), (t.r75, t.sod, t.eiInhibit), t.pc)) =
    some (true, (true, true, true), (false, false, true), 0x0101) := by decide

theorem test_V148_rim :
    after ({ machine noRegs noFlags 0 0x0100 [(0x0100, 0x20)] with inte := false, m75 := false, m65 := false, m55 := false, trapIE := some true, env := [EnvInput.idle] })
      (fun t => (t.regs.a, t.trapIE)) =
    some (0x08, none) := by decide

theorem test_V149_sim :
    after (machine { noRegs with a := 0x0E } noFlags 0 0x0100 [(0x0100, 0x30)])
      (fun t => ((t.regs.a, t.inte), (t.m75, t.m65, t.m55), (t.r75, t.sod, t.eiInhibit), t.pc)) =
    some ((0x0E, false), (true, true, false), (false, false, false), 0x0101) := by decide

theorem test_V151_sim :
    after ({ machine { noRegs with a := 0x1B } noFlags 0 0x0100 [(0x0100, 0x30)] with m75 := false, m65 := false, m55 := false, r75 := true })
      (fun t => (t.inte, (t.m75, t.m65, t.m55), (t.r75, t.sod, t.eiInhibit))) =
    some (false, (false, true, true), (false, false, false)) := by decide

theorem test_V155_in :
    after ({ machine noRegs { noFlags with z := true } 0 0x0100 [(0x0100, 0xDB), (0x0101, 0x10)] with answers := [0xA7] })
      (fun t => (t.regs.a, t.flags, t.trace, t.pc, t.tstates)) =
    some (0xA7, ⟨false, true, false, false, false⟩, [.ioRead 0x10 0xA7], 0x0102, 10) := by decide

theorem test_V156_out :
    after (machine { noRegs with a := 0x3C } noFlags 0 0x0100 [(0x0100, 0xD3), (0x0101, 0xFF)])
      (fun t => (t.regs.a, t.trace, t.pc, t.tstates)) =
    some (0x3C, [.ioWrite 0xFF 0x3C], 0x0102, 10) := by decide

theorem test_V159_mov :
    after (machine { noRegs with h := 0x12, l := 0xCD } noFlags 0 0 [(0x0000, 0x65)])
      (fun t => ((t.regs.h, t.regs.l), t.pc)) =
    some ((0xCD, 0xCD), 0x0001) := by decide

theorem test_V161_mov :
    after (machine { noRegs with h := 0x20, l := 0x50 } noFlags 0 0 [(0x0000, 0x66), (0x2050, 0x99)])
      (fun t => ((t.regs.h, t.regs.l), t.pc)) =
    some ((0x99, 0x50), 0x0001) := by decide

theorem test_V163_mov :
    after (machine { noRegs with h := 0x20, l := 0x50 } noFlags 0 0 [(0x0000, 0x74)])
      (fun t => (t.peek 0x2050, t.pc)) =
    some (0x20, 0x0001) := by decide

theorem test_V165_mvi :
    after (machine noRegs { noFlags with s := true } 0 0 [(0x0000, 0x0E), (0x0001, 0x7F)])
      (fun t => (t.regs.c, t.flags, t.pc, t.tstates)) =
    some (0x7F, ⟨true, false, false, false, false⟩, 0x0002, 7) := by decide

theorem test_V166_mvi :
    after (machine { noRegs with h := 0x20, l := 0x50 } noFlags 0 0 [(0x0000, 0x36), (0x0001, 0xAA)])
      (fun t => (t.peek 0x2050, t.pc, t.tstates)) =
    some (0xAA, 0x0002, 10) := by decide

theorem test_V167_lxi :
    after (machine noRegs noFlags 0 0 [(0x0000, 0x21), (0x0001, 0x50), (0x0002, 0x20)])
      (fun t => ((t.regs.h, t.regs.l), t.pc, t.tstates)) =
    some ((0x20, 0x50), 0x0003, 10) := by decide

theorem test_V170_lxi :
    after (machine noRegs noFlags 0 0 [(0x0000, 0x31), (0x0002, 0x21)])
      (fun t => (t.sp, t.pc)) =
    some (0x2100, 0x0003) := by decide

theorem test_V171_lda :
    after (machine noRegs noFlags 0 0 [(0x0000, 0x3A), (0x0001, 0x50), (0x0002, 0x20), (0x2050, 0x77)])
      (fun t => (t.regs.a, t.pc, t.tstates)) =
    some (0x77, 0x0003, 13) := by decide

theorem test_V172_sta :
    after (machine { noRegs with a := 0x77 } noFlags 0 0 [(0x0000, 0x32), (0x0001, 0x50), (0x0002, 0x20)])
      (fun t => (t.peek 0x2050, t.pc, t.tstates)) =
    some (0x77, 0x0003, 13) := by decide

theorem test_V174_lhld :
    after (machine noRegs noFlags 0 0 [(0x0000, 0x2A), (0x0001, 0xFF), (0x0002, 0xFF), (0xFFFF, 0x34)])
      (fun t => ((t.regs.h, t.regs.l), t.pc)) =
    some ((0x2A, 0x34), 0x0003) := by decide

theorem test_V176_shld :
    after (machine { noRegs with h := 0xAE, l := 0x29 } noFlags 0 0x0100 [(0x0100, 0x22), (0x0101, 0xFF), (0x0102, 0xFF)])
      (fun t => (t.peek 0x0000, t.peek 0xFFFF, t.pc)) =
    some (0xAE, 0x29, 0x0103) := by decide

theorem test_V177_ldax :
    after (machine { noRegs with b := 0x20, c := 0x50 } noFlags 0 0 [(0x0000, 0x0A), (0x2050, 0x5F)])
      (fun t => (t.regs.a, t.pc, t.tstates)) =
    some (0x5F, 0x0001, 7) := by decide

theorem test_V178_ldax :
    after (machine { noRegs with d := 0x20, e := 0x51 } noFlags 0 0 [(0x0000, 0x1A), (0x2051, 0xE0)])
      (fun t => (t.regs.a, t.pc)) =
    some (0xE0, 0x0001) := by decide

theorem test_V179_stax :
    after (machine { noRegs with a := 0x11, b := 0x20, c := 0x50 } noFlags 0 0 [(0x0000, 0x02)])
      (fun t => (t.peek 0x2050, t.pc, t.tstates)) =
    some (0x11, 0x0001, 7) := by decide

theorem test_V181_xchg :
    after (machine { noRegs with d := 0xAB, e := 0xCD, h := 0x12, l := 0x34 } { noFlags with z := true } 0 0 [(0x0000, 0xEB)])
      (fun t => ((t.regs.d, t.regs.e), (t.regs.h, t.regs.l), t.flags, t.pc, t.tstates)) =
    some ((0x12, 0x34), (0xAB, 0xCD), ⟨false, true, false, false, false⟩, 0x0001, 4) := by decide

theorem test_V182_push :
    after (machine { noRegs with b := 0x12, c := 0x34 } noFlags 0x2100 0x0100 [(0x0100, 0xC5)])
      (fun t => (t.sp, t.peek 0x20FE, t.peek 0x20FF, t.pc, t.tstates)) =
    some (0x20FE, 0x34, 0x12, 0x0101, 12) := by decide

theorem test_V184_push :
    after (machine { noRegs with h := 0x55, l := 0xAA } noFlags 0x0001 0x0100 [(0x0100, 0xE5)])
      (fun t => (t.sp, t.peek 0x0000, t.peek 0xFFFF)) =
    some (0xFFFF, 0x55, 0xAA) := by decide

theorem test_V188_pop :
    after (machine noRegs noFlags 0x20FE 0x0100 [(0x0100, 0xC1), (0x20FE, 0x34), (0x20FF, 0x12)])
      (fun t => (t.regs.b, t.regs.c, t.sp, t.pc, t.tstates)) =
    some (0x12, 0x34, 0x2100, 0x0101, 10) := by decide

theorem test_V190_pop :
    after (machine noRegs noFlags 0xFFFF 0x0100 [(0x0000, 0x22), (0x0100, 0xE1), (0xFFFF, 0x11)])
      (fun t => ((t.regs.h, t.regs.l), t.sp)) =
    some ((0x22, 0x11), 0x0001) := by decide

theorem test_V191_pop :
    after (machine noRegs noFlags 0x20FE 0x0100 [(0x0100, 0xF1), (0x20FE, 0xFF), (0x20FF, 0x9C)])
      (fun t => (t.regs.a, t.flags, t.sp, t.pc)) =
    some (0x9C, ⟨true, true, true, true, true⟩, 0x2100, 0x0101) := by decide

theorem test_V192_pop :
    after (machine noRegs { noFlags with s := true, z := true, ac := true, p := true, cy := true } 0x20FE 0x0100 [(0x0100, 0xF1), (0x20FE, 0x2A)])
      (fun t => (t.regs.a, t.flags, t.sp)) =
    some (0x00, ⟨false, false, false, false, false⟩, 0x2100) := by decide

theorem test_V194_xthl :
    after (machine { noRegs with h := 0x0B, l := 0x3C } noFlags 0x20FE 0x0100 [(0x0100, 0xE3), (0x20FE, 0xF0), (0x20FF, 0x0D)])
      (fun t => ((t.regs.h, t.regs.l), t.sp, t.peek 0x20FE, t.peek 0x20FF, t.pc, t.tstates)) =
    some ((0x0D, 0xF0), 0x20FE, 0x3C, 0x0B, 0x0101, 16) := by decide

theorem test_V195_sphl :
    after (machine { noRegs with h := 0x50, l := 0x6C } noFlags 0 0x0100 [(0x0100, 0xF9)])
      (fun t => ((t.regs.h, t.regs.l), t.sp, t.pc, t.tstates)) =
    some ((0x50, 0x6C), 0x506C, 0x0101, 6) := by decide

theorem test_V196_undefined :
    faultOf (step (machine noRegs noFlags 0 0x0100 [(0x0100, 0x08)])) = some (.undefinedOpcode 0x08 0x0100) := by
  decide

theorem test_V205_undefined :
    faultOf (step (machine noRegs noFlags 0 0x0100 [(0x0100, 0xFD)])) = some (.undefinedOpcode 0xFD 0x0100) := by
  decide

/-- The vector V147 of RIM, at the instruction itself: its start state has RST 7.5 latched, unmasked and enabled, so a
whole step would go on to take that interrupt at the sampling point (60_exceptions.md R295; log 27). The levels of
RST 6.5 and RST 5.5 are bits 5 and 4. -/
theorem test_V147_rim :
    inNext (exec .rim { machine noRegs noFlags 0 0x0100 [] with
        inte := true, m75 := false, r75 := true, env := [{ EnvInput.idle with sid := true }] })
      (fun t => (t.regs.a, t.inte, t.r75, t.eiInhibit)) = some (0xCB, true, true, false) ∧
    inNext (exec .rim { State.reset with env := [{ EnvInput.idle with rim65 := true }] }) (fun t => t.regs.a) =
      some 0x27 ∧
    inNext (exec .rim { State.reset with env := [{ EnvInput.idle with rim55 := true }] }) (fun t => t.regs.a) =
      some 0x17 := by decide

/-- V185 to V187: whatever the three open bits are, the pushed flag byte has the other five; and the vectors' draws. -/
theorem test_V185_flag_byte :
    ∀ u : BitVec 3, Flags.toByte ⟨false, true, false, true, true⟩ u &&& 0xD5 = 0x45 ∧
      Flags.toByte ⟨true, false, true, false, false⟩ u &&& 0xD5 = 0x90 ∧
      Flags.toByte ⟨false, true, false, true, true⟩ 0b000 = 0x45 ∧
      Flags.toByte ⟨false, true, false, true, true⟩ 0b111 = 0x6F ∧
      Flags.toByte ⟨true, false, true, false, false⟩ 0b001 = 0x92 := by decide

theorem test_V185_pushPsw_sp :
    after (machine { noRegs with a := 0x9C } noFlags 0x2100 0x0100 [(0x0100, 0xF5)])
      (fun t => (t.sp, t.regs.a, t.pc)) = some (0x20FE, 0x9C, 0x0101) := by decide

/-! ### Memory kinds (R57) -/

/-- A store to ROM is dropped; a store to and a read of a device are events. -/
theorem test_memory_kinds :
    (({ State.reset with memMap := [⟨0x0000, 0x0FFF, .rom⟩], mem := [(0x0100, 0x55)] } : State).store 0x0100 0x77).peek
      0x0100 = 0x55 ∧
    (({ State.reset with memMap := [⟨0x8000, 0x80FF, .device⟩] } : State).store 0x8001 0x77).trace =
      [.memWrite 0x8001 0x77] ∧
    (({ State.reset with memMap := [⟨0x8000, 0x80FF, .device⟩], answers := [0x12] } : State).load 0x8001).1 = 0x12 := by
  decide

/-! ### Sampling points: the vectors I1 to I16 of 95_test_vectors.md L2.8 -/

/-- The start state of the sampling vectors, with INTE, the masks M75 M65 M55 and the input. -/
def atSampling (inte m75 m65 m55 : Bool) (e : EnvInput) : State :=
  { machine noRegs noFlags 0x2100 0x1234 [] with inte := inte, m75 := m75, m65 := m65, m55 := m55, env := [e] }

theorem test_I1_trap :
    inNext (atSampling false true true true { EnvInput.idle with trap := true }).sample
      (fun t => (t.pc, t.sp, (t.peek 0x20FE, t.peek 0x20FF), t.inte, t.trapIE)) =
    some (0x0024, 0x20FE, (0x34, 0x12), false, some false) := by decide

theorem test_I2_trap_is_highest :
    inNext (atSampling true false false false
        { EnvInput.idle with trap := true, e75 := true, l65 := true, l55 := true, intr := true }).sample
      (fun t => (t.pc, t.inte, t.trapIE, t.r75)) = some (0x0024, false, some true, true) := by decide

theorem test_I3_rst75 :
    inNext (atSampling true false false false
        { EnvInput.idle with e75 := true, l65 := true, l55 := true, intr := true }).sample
      (fun t => (t.pc, t.sp, t.inte, t.r75)) = some (0x003C, 0x20FE, false, false) := by decide

theorem test_I4_rst65_with_rst75_masked :
    inNext (atSampling true true false false { EnvInput.idle with e75 := true, l65 := true, l55 := true }).sample
      (fun t => (t.pc, t.inte, t.r75)) = some (0x0034, false, true) := by decide

theorem test_I5_rst55 :
    inNext (atSampling true true true false { EnvInput.idle with l65 := true, l55 := true }).sample
      (fun t => (t.pc, t.inte)) = some (0x002C, false) := by decide

theorem test_I6_intr_rst5 :
    inNext (atSampling true true true true
        { EnvInput.idle with l65 := true, l55 := true, intr := true, intrOp := 0xEF }).sample
      (fun t => (t.pc, t.sp, (t.peek 0x20FE, t.peek 0x20FF), t.inte)) =
    some (0x0028, 0x20FE, (0x34, 0x12), false) := by decide

theorem test_I7_intr_call :
    inNext (atSampling true true true true
        { EnvInput.idle with intr := true, intrOp := 0xCD, intrLo := 0x00, intrHi := 0x30 }).sample
      (fun t => (t.pc, t.sp, (t.peek 0x20FE, t.peek 0x20FF), t.inte)) =
    some (0x3000, 0x20FE, (0x34, 0x12), false) := by decide

theorem test_I8_disabled :
    inNext (atSampling false false false false
        { EnvInput.idle with e75 := true, l65 := true, l55 := true, intr := true }).sample
      (fun t => (t.pc, t.sp, t.r75)) = some (0x1234, 0x2100, true) := by decide

theorem test_I9_after_ei :
    inNext ({ atSampling true false false false { EnvInput.idle with e75 := true, l65 := true } with
        eiInhibit := true }).sample
      (fun t => (t.pc, t.inte, t.r75)) = some (0x1234, true, true) := by decide

theorem test_I10_trap_after_ei :
    inNext ({ atSampling true true true true { EnvInput.idle with trap := true } with eiInhibit := true }).sample
      (fun t => (t.pc, t.inte, t.trapIE, t.eiInhibit)) = some (0x0024, false, some true, false) := by decide

/-- I11: a halted machine, in a whole step. -/
theorem test_I11_halt_ends :
    after { atSampling true true true false { EnvInput.idle with l55 := true } with halted := true, pc := 0x0101 }
      (fun t => (t.halted, t.pc, t.sp, (t.peek 0x20FE, t.peek 0x20FF), t.inte)) =
    some (false, 0x002C, 0x20FE, (0x01, 0x01), false) := by decide

theorem test_I12_halt_stays :
    after { atSampling false true true false { EnvInput.idle with l55 := true } with halted := true, pc := 0x0101 }
      (fun t => (t.halted, t.pc)) = some (true, 0x0101) := by decide

theorem test_I13_halt_trap :
    after { atSampling false true true true { EnvInput.idle with trap := true } with halted := true, pc := 0x0101 }
      (fun t => (t.halted, t.pc, t.trapIE)) = some (false, 0x0024, some false) := by decide

theorem test_I14_latched_earlier :
    inNext ({ atSampling true false true true EnvInput.idle with r75 := true }).sample
      (fun t => (t.pc, t.sp, t.inte, t.r75)) = some (0x003C, 0x20FE, false, false) := by decide

theorem test_I15_masked :
    inNext ({ atSampling true true true true EnvInput.idle with r75 := true }).sample
      (fun t => (t.pc, t.r75)) = some (0x1234, true) := by decide

theorem test_I16_nothing :
    inNext (atSampling true false false false EnvInput.idle).sample (fun t => t) =
      some { atSampling true false false false EnvInput.idle with env := [] } := by decide

/-- The whole step from the state of V147 takes RST 7.5 after the RIM. -/
theorem test_V147_step_takes_rst75 :
    after { machine noRegs noFlags 0x2100 0x0100 [(0x0100, 0x20)] with
        inte := true, m75 := false, r75 := true, env := [{ EnvInput.idle with sid := true }] }
      (fun t => (t.regs.a, t.pc, t.inte, t.r75)) = some (0xCB, 0x003C, false, false) := by decide

/-- R301: with NOP on the bus the acknowledge is refused. -/
theorem test_intr_refuses_nop :
    refusalOf (atSampling true true true true { EnvInput.idle with intr := true, intrOp := 0x00 }).sample =
      some (.intrInstruction 0x00) := by decide

/-- R314 (c): an edge at the sampling point after SIM clears R75 is not lost. -/
theorem test_sim_then_edge :
    after { machine { noRegs with a := 0x10 } noFlags 0x2100 0 [(0x0000, 0x30)] with
        r75 := true, env := [{ EnvInput.idle with e75 := true }] } (fun t => t.r75) = some true := by decide

/-- Step 5 of program P4: the instruction after EI completes, then RST 6.5 is taken. -/
theorem test_P4_step5 :
    after { machine noRegs noFlags 0x2100 0x0007 [(0x0007, 0x00)] with
        inte := true, m65 := false, eiInhibit := true, env := [{ EnvInput.idle with l65 := true }] }
      (fun t => (t.pc, t.sp, (t.peek 0x20FE, t.peek 0x20FF), t.inte)) =
    some (0x0034, 0x20FE, (0x08, 0x00), false) := by decide

/-! ### Placing an instruction -/

theorem test_withFetchWord_runs :
    after (State.reset.withFetchWord 24 0x123421) (fun t => (t.regs.h, t.regs.l, t.pc)) =
      some (0x12, 0x34, 0x0003) := by decide

/-- Where the program counter points at a halted machine's device memory, the placed instruction still runs. -/
theorem test_withFetchWord_from_a_halt :
    after (({ State.reset with halted := true, pc := 0x8000, memMap := [⟨0x8000, 0x80FF, .device⟩] } :
        State).withFetchWord 16 0x423E) (fun t => (t.regs.a, t.pc)) = some (0x42, 0x8002) := by decide

/-! ### Witnesses: for each statement with hypotheses, a state and operands that meet them -/

theorem witness_DecodeOfEncodeIsTheInstruction :
    (Instr.lxi .sp 0xFFFF).WellFormed = true ∧ (Instr.undefinedOp 0xFD).WellFormed = true := by decide

theorem witness_EncodeOfDecodeIsTheBytes : decode [0x3E, 0xFF, 0x76] = .ok (.mvi .a 0xFF, [0x76]) := rfl

theorem witness_OpcodeAloneFixesLengthAndDefinedness :
    (0xFD : Byte) ∈ ([0x08, 0x10, 0x18, 0x28, 0x38, 0xCB, 0xD9, 0xDD, 0xED, 0xFD] : List Byte) ∧
    (0xFE : Byte) ∉ ([0x08, 0x10, 0x18, 0x28, 0x38, 0xCB, 0xD9, 0xDD, 0xED, 0xFD] : List Byte) := by decide

theorem witness_DaaCorrectsPackedDecimalSums :
    99 < 100 ∧ (daa8 (add8 0x99 0x99 true).1 (add8 0x99 0x99 true).2).1 = 0x99 ∧ 0 < 100 ∧
    (daa8 (add8 0x00 0x00 false).1 (add8 0x00 0x00 false).2).1 = 0x00 := by decide

/-- The clauses on the environment: an input listed, none, and `NoInterrupts` with SID high. -/
theorem witness_RimReadsTheInterruptByte :
    ({ State.reset with env := [EnvInput.idle] } : State).env = EnvInput.idle :: [] ∧ State.reset.env = [] ∧
    ({ State.reset with env := [{ EnvInput.idle with sid := true }] } : State).noInterrupts = true := by
  decide

/-- An input in which a RIM finds RST 6.5 or RST 5.5 high is no input of `NoInterrupts` (D13). -/
theorem test_quiet_inputs_read_low :
    EnvInput.idle.quiet = true ∧ { EnvInput.idle with rim65 := true }.quiet = false ∧
    { EnvInput.idle with rim55 := true }.quiet = false ∧ { EnvInput.idle with sid := true }.quiet = true := by decide

/-- Both clauses on the answers: one listed, and none. -/
theorem witness_InAndOutExchangeBytesWithPorts :
    ({ State.reset with answers := [0xA7] } : State).answers = 0xA7 :: [] ∧ State.reset.answers = [] := by decide

theorem witness_UndefinedOpcodeFaults :
    let s := machine noRegs noFlags 0 0xFFFF [(0xFFFF, 0xFD)]
    s.halted = false ∧ s.input.reset = false ∧ s.isPlain s.pc = true ∧
    s.peek s.pc ∈ ([0x08, 0x10, 0x18, 0x28, 0x38, 0xCB, 0xD9, 0xDD, 0xED, 0xFD] : List Byte) := by decide

/-- One state in which the four kinds stand at the two ends of a region and just past it; the third range overlaps the
second. -/
theorem witness_AccessesFollowTheMemoryKind :
    let s : State := { State.reset with
      memMap := [⟨0x0000, 0x0FFF, .rom⟩, ⟨0x2000, 0x20FF, .absent⟩, ⟨0x20FF, 0x2100, .ram⟩, ⟨0xFFFF, 0xFFFF, .device⟩] }
    s.kindAt 0x0000 = .rom ∧ s.kindAt 0x0FFF = .rom ∧ s.kindAt 0x1000 = .ram ∧ s.kindAt 0x2000 = .absent ∧
    s.kindAt 0x20FF = .absent ∧ s.kindAt 0xFFFE = .ram ∧ s.kindAt 0xFFFF = .device ∧
    Memory.wf s.mem = true ∧ State.reset.memMap = [] ∧
    (∀ r ∈ s.memMap, ¬ (r.first ≤ 0x1000 ∧ 0x1000 ≤ r.last)) ∧
    (s.memMap = [⟨0x0000, 0x0FFF, .rom⟩] ++ ⟨0x2000, 0x20FF, .absent⟩ ::
        [⟨0x20FF, 0x2100, .ram⟩, ⟨0xFFFF, 0xFFFF, .device⟩] ∧
      (∀ q ∈ ([⟨0x0000, 0x0FFF, .rom⟩] : List Region), ¬ (q.first ≤ 0x20FF ∧ 0x20FF ≤ q.last)) ∧
      0x2000 ≤ 0x20FF ∧ 0x20FF ≤ 0x20FF) := by decide

/-- A canonical memory and a RAM stack that wraps through 0000H; for the four statements about pushing. -/
theorem witness_PopUndoesPush :
    let s := machine noRegs noFlags 0x0001 0x0100 [(0x0000, 0x01)]
    Memory.wf s.mem = true ∧ s.kindAt (s.sp - 1) = .ram ∧ s.kindAt (s.sp - 2) = .ram := by decide

theorem witness_PushPswThenPopPswRestores :
    let s := machine noRegs noFlags 0x2100 0x0100 [(0x20FF, 0x01)]
    Memory.wf s.mem = true ∧ s.kindAt (s.sp - 1) = .ram ∧ s.kindAt (s.sp - 2) = .ram := by decide

theorem witness_ReturnResumesTheInterruptedProgram :
    let s := { machine noRegs noFlags 0x0000 0x0100 [] with halted := true, inte := true }
    Memory.wf s.mem = true ∧ s.kindAt (s.sp - 1) = .ram ∧ s.kindAt (s.sp - 2) = .ram := by decide

/-- A three-byte instruction whose bytes wrap through 0000H, the first in ROM. -/
theorem witness_StepRunsTheDecodedInstruction :
    let s := { machine noRegs noFlags 0 0xFFFF [(0x0000, 0x34), (0x0001, 0x12), (0xFFFF, 0xC3)] with
      memMap := [⟨0xFFFF, 0xFFFF, .rom⟩] }
    s.halted = false ∧ s.input.reset = false ∧
    (∀ k : Nat, k < (Instr.jmp 0x1234).length → s.isPlain (s.pc + BitVec.ofNat 16 k) = true) ∧
    decoded [s.peek s.pc, s.peek (s.pc + 1), s.peek (s.pc + 2)] = some (.jmp 0x1234, []) := by decide

/-- The same at each length, the bytes answered by a device, which is read in ascending order. -/
theorem witness_StepRunsTheDecodedInstruction_fetch :
    let s (bytes : List Byte) := { State.reset with
      pc := 0xFFFF, memMap := [⟨0x0000, 0xFFFF, .device⟩], answers := bytes }
    opLength ((s [0x76]).load 0xFFFF).1 = 1 ∧ opLength ((s [0x3E, 0x12]).load 0xFFFF).1 = 2 ∧
    opLength ((s [0xC3, 0x34, 0x12]).load 0xFFFF).1 = 3 ∧
    (s [0xC3, 0x34, 0x12]).fetch.1 = .jmp 0x1234 ∧
    (s [0xC3, 0x34, 0x12]).fetch.2.trace = [.memRead 0xFFFF 0xC3, .memRead 0x0000 0x34, .memRead 0x0001 0x12] := by
  decide

/-- Op codes that are no RST and no CALL, and a state whose sampling point takes INTR with such a one. -/
theorem witness_IntrAcceptsRestartAndCallOnly :
    let s := atSampling true true true true { EnvInput.idle with intr := true, intrOp := 0xC9 }
    (0xC9 : Byte) ≠ 0xCD ∧ (0xC9 : Byte) &&& 0xC7 ≠ 0xC7 ∧ s.input.trap = false ∧ s.inte = true ∧
    s.eiInhibit = false ∧ s.r75 = false ∧ s.input.e75 = false ∧ s.input.l65 = false ∧ s.input.l55 = false ∧
    s.input.intr = true ∧ s.input.intrOp ≠ 0xCD ∧ s.input.intrOp &&& 0xC7 ≠ 0xC7 := by decide

/-- EI and DI with every maskable request present and unmasked. -/
theorem witness_EiAndDiHoldMaskableInterruptsOff :
    let e := { EnvInput.idle with e75 := true, l65 := true, l55 := true, intr := true }
    let s := { atSampling true false false false e with mem := [(0x1234, 0xFB)] }
    let d := { s with mem := [(0x1234, 0xF3)] }
    (s.halted = false ∧ s.input.reset = false ∧ s.input.trap = false ∧ s.isPlain s.pc = true ∧ s.peek s.pc = 0xFB) ∧
    (d.halted = false ∧ d.input.reset = false ∧ d.input.trap = false ∧ d.isPlain d.pc = true ∧
      d.peek d.pc = 0xF3) := by decide

/-- INTE clear with the same requests: halted, and running a NOP. -/
theorem witness_EiAndDiHoldMaskableInterruptsOff_later :
    let e := { EnvInput.idle with e75 := true, l65 := true, l55 := true, intr := true }
    let s := atSampling false false false false e
    (s.inte = false ∧ s.input.reset = false ∧ s.input.trap = false) ∧
    ({ s with halted := true } : State).halted = true ∧ s.halted = false ∧ s.fetch.1 ≠ .ei ∧
    ∃ u, exec s.fetch.1 s.fetch.2 = .next u := ⟨by decide, by decide, by decide, by decide, _, rfl⟩

theorem witness_ResetWinsAndFixesItsState :
    (atSampling true false false false { EnvInput.idle with reset := true, trap := true }).input.reset = true := by
  decide

/-- The invariant and a step, with an interrupt taken in it. -/
theorem witness_EveryStepKeepsTheInvariant :
    let s := { atSampling true false false false { EnvInput.idle with e75 := true } with mem := [(0x1000, 0x76)] }
    s.Inv ∧ (after s (fun t => t.pc) = some 0x003C) :=
  ⟨⟨by decide, by decide, by decide⟩, by decide⟩

/-- The second clause: a step under `NoInterrupts`, with R75 clear and with SID high. -/
theorem witness_EveryStepKeepsTheInvariant_noInterrupts :
    let s := { State.reset with env := [{ EnvInput.idle with sid := true }, EnvInput.idle] }
    s.noInterrupts = true ∧ s.r75 = false ∧ ∃ t, step s = .next t := ⟨by decide, by decide, _, rfl⟩

/-- A run of one step, a store to ROM, and an address in ROM. -/
theorem witness_RomNeverChangesAlongARun :
    let s := { machine { noRegs with a := 0x77 } noFlags 0 0 [(0x0000, 0x32), (0x0002, 0x01)] with
      memMap := [⟨0x0000, 0x0FFF, .rom⟩] }
    (∃ t, Reaches s t ∧ t.pc = 0x0003) ∧ s.kindAt 0x0100 ≠ .ram :=
  ⟨⟨_, .step rfl (.here _), by decide⟩, by decide⟩

theorem witness_TraceOnlyGrowsAlongARun :
    ∃ t, Reaches (machine noRegs noFlags 0 0 [(0x0000, 0xD3), (0x0001, 0x01)]) t ∧ t.trace = [.ioWrite 0x01 0x00] :=
  ⟨_, .step rfl (.here _), by decide⟩

theorem witness_OnlyDestinationRegistersChange :
    (∃ t, exec (.mov .b .c) State.reset = .next t) ∧ regWritten (.mov .b .c) .c = false ∧
    spWritten (.mov .b .c) State.reset = false := ⟨⟨_, rfl⟩, by decide, by decide⟩

theorem witness_OnlyTheStoredBytesChange :
    (∃ t, exec (.push .bc) State.reset = .next t) ∧ (0x0000 : Addr) ∉ storedAt (.push .bc) State.reset :=
  ⟨⟨_, rfl⟩, by decide⟩

theorem witness_OnlyTheListedFlagsChange :
    (∃ t, exec (.inr .a) State.reset = .next t) ∧ flagWritten (.inr .a) .cy = false := ⟨⟨_, rfl⟩, by decide⟩

/-- One next state for each premise: of no other instruction, and of each exception to a clause. -/
theorem witness_OnlyTheirInstructionsChangeInterruptState :
    (∃ t, exec .nop State.reset = .next t) ∧ (∃ t, exec .ei State.reset = .next t) ∧
    (∃ t, exec .sim State.reset = .next t) ∧ (∃ t, exec .hlt State.reset = .next t) ∧
    (∃ t, exec .rim State.reset = .next t) := ⟨⟨_, rfl⟩, ⟨_, rfl⟩, ⟨_, rfl⟩, ⟨_, rfl⟩, ⟨_, rfl⟩⟩

theorem witness_InAllRamOnlyInputOutputMeetsTheEnvironment :
    State.reset.memMap = [] ∧ ∃ t, exec (.call 0x1234) State.reset = .next t := ⟨rfl, ⟨_, rfl⟩⟩

theorem witness_TStatesFollowTheTable :
    (∃ t, exec (.jz 0x1234) State.reset = .next t) ∧ (∃ t, exec (.jnz 0x1234) State.reset = .next t) :=
  ⟨⟨_, rfl⟩, ⟨_, rfl⟩⟩

/-- A fault, a refusal, and a step whose op code is defined and whose inputs hold no INTR. -/
theorem witness_OnlyUndefinedOpcodesAndForeignIntrStop :
    (∀ op, Instr.nop ≠ .undefinedOp op) ∧
    step (machine noRegs noFlags 0 0 [(0x0000, 0x08)]) = .fault (.undefinedOpcode 0x08 0x0000) ∧
    step (atSampling true true true true { EnvInput.idle with intr := true, intrOp := 0x76 }) =
      .refused (.intrInstruction 0x76) ∧
    (State.reset.isPlain State.reset.pc = true ∧ State.reset.peek State.reset.pc ∉ undefinedOpcodes ∧
      State.reset.input.intr = false) := ⟨fun _ => nofun, rfl, rfl, by decide⟩

/-- A halted machine with a quiet input listed, and one with none. -/
theorem witness_HaltedIsFinalWithoutInterrupts :
    ({ State.reset with halted := true, inte := true, env := [EnvInput.idle] } : State).finished = true ∧
    ({ State.reset with halted := true } : State).finished = true ∧
    ({ State.reset with halted := true } : State).env = [] := by decide

theorem witness_HaltEndsOnlyByInterruptOrReset :
    let s := { atSampling true true true false { EnvInput.idle with l55 := true } with halted := true }
    s.halted = true ∧ ∃ t, step s = .next t ∧ t.pc = 0x002C := ⟨rfl, _, rfl, rfl⟩

end Sys2Proof.Tests
end

section
/-! PROOFS. The decoder by the length of the op code (30_encoding.md R70), the fetch by the same length (R55), and one
step of a running machine (00_scope.md R12). -/

namespace Sys2Proof

/-! ### The length an op code asks for -/

/-- An instruction is one, two or three bytes long (R70). -/
theorem Instr.length_cases (i : Instr) : i.length = 1 ∨ i.length = 2 ∨ i.length = 3 := by
  cases i <;> simp [Instr.length]

theorem opLength_cases (op : Byte) : opLength op = 1 ∨ opLength op = 2 ∨ opLength op = 3 :=
  Instr.length_cases _

/-- In quadrant 00 the operand bytes do not enter the length. -/
theorem decodeQuadrant0_length (op data8 : Byte) (data16 : Addr) :
    (decodeQuadrant0 op data8 data16).length = (decodeQuadrant0 op 0 0).length := by
  simp only [decodeQuadrant0]
  repeat' split
  all_goals rfl

/-- In quadrant 11 the operand bytes do not enter the length. -/
theorem decodeQuadrant3_length (op data8 : Byte) (data16 : Addr) :
    (decodeQuadrant3 op data8 data16).length = (decodeQuadrant3 op 0 0).length := by
  simp only [decodeQuadrant3]
  repeat' split
  all_goals rfl

/-- The bytes after the op code play no part in the length (R70, R82). -/
theorem decodeBytes_length (op byte2 byte3 : Byte) : (decodeBytes op byte2 byte3).length = opLength op := by
  simp only [opLength, decodeBytes]
  split
  · rw [decodeQuadrant0_length, decodeQuadrant0_length op 0 (word16 0 0)]
  · rfl
  · rfl
  · rw [decodeQuadrant3_length, decodeQuadrant3_length op 0 (word16 0 0)]

/-! ### `decode` by that length -/

theorem decode_of_opLength_one {op : Byte} (h : opLength op = 1) (rest : List Byte) :
    decode (op :: rest) = .ok (decodeBytes op 0 0, rest) := by
  simp [decode, h]

theorem decode_of_opLength_two {op : Byte} (h : opLength op = 2) (byte2 : Byte) (rest : List Byte) :
    decode (op :: byte2 :: rest) = .ok (decodeBytes op byte2 0, rest) := by
  simp [decode, h]

theorem decode_of_opLength_three {op : Byte} (h : opLength op = 3) (byte2 byte3 : Byte) (rest : List Byte) :
    decode (op :: byte2 :: byte3 :: rest) = .ok (decodeBytes op byte2 byte3, rest) := by
  simp [decode, h]

/-- What decodes has the length its op code asks for. -/
theorem length_of_decode {op : Byte} {bytes rest : List Byte} {i : Instr}
    (h : decode (op :: bytes) = .ok (i, rest)) : i.length = opLength op := by
  simp only [decode] at h
  split at h <;> cases h <;> exact decodeBytes_length _ _ _

namespace Machine

/-! ### `fetch` by that length -/

theorem State.fetch_of_opLength_one {s : State} (h : opLength (s.load s.pc).1 = 1) :
    s.fetch = (decodeBytes (s.load s.pc).1 0 0, (s.load s.pc).2) := by
  simp [State.fetch, h]

theorem State.fetch_of_opLength_two {s : State} (h : opLength (s.load s.pc).1 = 2) :
    s.fetch = (decodeBytes (s.load s.pc).1 ((s.load s.pc).2.load (s.pc + 1)).1 0,
      ((s.load s.pc).2.load (s.pc + 1)).2) := by
  simp [State.fetch, h]

theorem State.fetch_of_opLength_three {s : State} (h : opLength (s.load s.pc).1 = 3) :
    s.fetch = (decodeBytes (s.load s.pc).1 ((s.load s.pc).2.load (s.pc + 1)).1
        (((s.load s.pc).2.load (s.pc + 1)).2.load (s.pc + 2)).1,
      (((s.load s.pc).2.load (s.pc + 1)).2.load (s.pc + 2)).2) := by
  simp [State.fetch, h]

/-- Where every byte of the instruction lies in RAM or ROM, a fetch gives what the bytes at pc decode to and changes
nothing: the bytes that are not part of it are not read, so they may lie anywhere. -/
theorem State.fetch_of_decode {s : State} {i : Instr} {rest : List Byte}
    (hplain : ∀ k : Nat, k < i.length → s.isPlain (s.pc + BitVec.ofNat 16 k) = true)
    (hdec : decode [s.peek s.pc, s.peek (s.pc + 1), s.peek (s.pc + 2)] = .ok (i, rest)) : s.fetch = (i, s) := by
  have hlen : i.length = opLength (s.peek s.pc) := length_of_decode hdec
  rw [hlen] at hplain
  have load0 : s.load s.pc = (s.peek s.pc, s) := by
    have hpos : 0 < opLength (s.peek s.pc) := by have := opLength_cases (s.peek s.pc); omega
    exact State.load_plain (by simpa using hplain 0 hpos)
  have load1 (h : 1 < opLength (s.peek s.pc)) : s.load (s.pc + 1) = (s.peek (s.pc + 1), s) :=
    State.load_plain (hplain 1 h)
  have load2 (h : 2 < opLength (s.peek s.pc)) : s.load (s.pc + 2) = (s.peek (s.pc + 2), s) :=
    State.load_plain (hplain 2 h)
  rcases opLength_cases (s.peek s.pc) with h | h | h
  · rw [decode_of_opLength_one h] at hdec
    cases hdec
    rw [State.fetch_of_opLength_one (by rwa [load0]), load0]
  · rw [decode_of_opLength_two h] at hdec
    cases hdec
    rw [State.fetch_of_opLength_two (by rwa [load0]), load0, load1 (by omega)]
  · rw [decode_of_opLength_three h] at hdec
    cases hdec
    rw [State.fetch_of_opLength_three (by rwa [load0]), load0, load1 (by omega), load2 (by omega)]

/-! ### One step -/

/-- A machine that is neither halted nor reset fetches, executes and samples (R12). -/
theorem step_running {s : State} (hh : s.halted = false) (hr : s.input.reset = false) :
    step s = andThen (exec s.fetch.1 s.fetch.2) State.sample := by
  simp [step, hh, hr]

/-- Settles O40, by the step of a running machine, and the fetch and the decoder at each length an op code asks for. -/
theorem stepRunsTheDecodedInstruction : Obligations.StepRunsTheDecodedInstruction := by
  unfold Obligations.StepRunsTheDecodedInstruction
  refine ⟨fun s i rest hh hr hplain hdec => ?_, fun s hh hr => ?_, fun s => ⟨fun h => ?_, fun h => ?_, fun h => ?_⟩⟩
  · rw [step_running hh hr, State.fetch_of_decode hplain hdec]
    rfl
  · rw [step_running hh hr]
    rfl
  · rw [State.fetch_of_opLength_one h]
    exact ⟨decode_of_opLength_one h _, rfl⟩
  · rw [State.fetch_of_opLength_two h]
    exact ⟨decode_of_opLength_two h _ _, rfl⟩
  · rw [State.fetch_of_opLength_three h]
    exact ⟨decode_of_opLength_three h _ _ _, rfl⟩

end Machine

end Sys2Proof
end

section
/-! PROOFS. The flag functions: S, Z and P of a result (10_state.md R29), `add8` and `sub8` as nine-bit sums (R30, R31),
and the flag byte (R28). -/

namespace Sys2Proof.Machine

open Sys2Proof.Claims

/-! ### S, Z and P of a result (R29) -/

/-- The model counts the 1 bits one by one, the statements by a filter over the bit numbers. -/
theorem countOnes_eq_length_filter (v : Byte) :
    countOnes v = ((List.range 8).filter (fun k => v.getLsbD k)).length := by
  simp only [countOnes, Bool.toNat, ← List.countP_eq_length_filter, List.range_succ, List.range_zero,
    List.countP_append, List.countP_singleton, List.nil_append, Bool.cond_eq_ite]

theorem evenParity_eq (v : Byte) :
    evenParity v = decide (((List.range 8).filter (fun k => v.getLsbD k)).length % 2 = 0) := by
  rw [evenParity, countOnes_eq_length_filter]
  rfl

/-- The flags that hold S, Z and P of a byte are its result flags. -/
theorem resultFlags_eq (res : Byte) (ac cy : Bool) :
    resultFlags res ac cy = { s := res.getLsbD 7, z := res == 0, p := evenParity res, ac := ac, cy := cy } := by
  rw [resultFlags, ← evenParity_eq]
  rfl

theorem Flags.szp_eq (f : Flags) (v : Byte) : f.szp v = resultFlags v f.ac f.cy := by
  rw [resultFlags_eq]
  rfl

/-- Settles O5, by the flags of a result; the four examples are its values. -/
theorem szpWritesSignZeroParity : Obligations.SzpWritesSignZeroParity := by
  unfold Obligations.SzpWritesSignZeroParity
  exact ⟨Flags.szp_eq, fun f => ⟨rfl, rfl, rfl, rfl⟩⟩

/-! ### The nine-bit sum of an addition (R30) -/

/-- The sum of two bytes and a carry, in nine bits. -/
def sum9 (a b : Byte) (c : Bool) : BitVec 9 := a.setWidth 9 + b.setWidth 9 + (BitVec.ofBool c).setWidth 9

theorem toNat_sum9 (a b : Byte) (c : Bool) : (sum9 a b c).toNat = a.toNat + b.toNat + c.toNat := by
  have := a.isLt
  have := b.isLt
  have := c.toNat_lt
  simp only [sum9, BitVec.toNat_add, BitVec.toNat_setWidth, BitVec.toNat_ofBool]
  omega

/-- Nine bits hold the sum, so its low eight are the result. -/
theorem sum9_low (a b : Byte) (c : Bool) :
    (sum9 a b c).extractLsb' 0 8 = BitVec.ofNat 8 (a.toNat + b.toNat + c.toNat) := by
  apply BitVec.eq_of_toNat_eq
  simp [toNat_sum9]

/-- Bit 8 of the sum is its carry. -/
theorem sum9_carry (a b : Byte) (c : Bool) :
    (sum9 a b c).getLsbD 8 = decide (a.toNat + b.toNat + c.toNat > 255) := by
  rw [← BitVec.msb_eq_getLsbD_last, BitVec.msb_eq_decide, toNat_sum9]
  exact decide_eq_decide.mpr (by omega)

theorem lowNibble_eq (v : Byte) : lowNibble v = (v.extractLsb' 0 4).toNat := by
  simp [lowNibble]

/-- `add8` as the nine-bit sum, with all five flags. -/
theorem add8_eq (a b : Byte) (c : Bool) :
    add8 a b c = ((sum9 a b c).extractLsb' 0 8,
      resultFlags ((sum9 a b c).extractLsb' 0 8)
        (decide ((a.extractLsb' 0 4).toNat + (b.extractLsb' 0 4).toNat + c.toNat > 15)) ((sum9 a b c).getLsbD 8)) := by
  rw [sum9_low, sum9_carry, resultFlags_eq, ← lowNibble_eq, ← lowNibble_eq]
  rfl

/-- Settles O6, by the value of the nine-bit sum. -/
theorem add8IsTheNineBitSum : Obligations.Add8IsTheNineBitSum := by
  unfold Obligations.Add8IsTheNineBitSum
  exact add8_eq

/-! ### The subtraction as an addition of the complement (R31) -/

theorem toNat_complement (b : Byte) : (b ^^^ 0xFF).toNat = 255 - b.toNat := by
  have h : b ^^^ 0xFF = ~~~b := BitVec.xor_allOnes
  rw [h, BitVec.toNat_not]

/-- The low eight bits of the addition of the complement are the difference. -/
theorem sum9_complement_low (a b : Byte) (c : Bool) :
    (sum9 a (b ^^^ 0xFF) (!c)).extractLsb' 0 8 = a - b - (BitVec.ofBool c).setWidth 8 := by
  apply BitVec.eq_of_toNat_eq
  have := a.isLt
  have := b.isLt
  cases c <;>
    simp only [sum9_low, toNat_complement, BitVec.toNat_sub, BitVec.toNat_ofNat, BitVec.toNat_setWidth,
      BitVec.toNat_ofBool, Bool.not_false, Bool.not_true, Bool.toNat_false, Bool.toNat_true] <;>
    omega

/-- The addition of the complement carries exactly where the subtraction does not borrow. -/
theorem sum9_complement_carry (a b : Byte) (c : Bool) :
    (sum9 a (b ^^^ 0xFF) (!c)).getLsbD 8 = !decide (a.toNat < b.toNat + c.toNat) := by
  have hb := b.isLt
  rw [sum9_carry, toNat_complement, ← decide_not]
  refine decide_eq_decide.mpr ?_
  cases c <;> simp only [Bool.not_false, Bool.not_true, Bool.toNat_false, Bool.toNat_true] <;> omega

theorem sub8_eq (a b : Byte) (c : Bool) :
    sub8 a b c = (a - b - (BitVec.ofBool c).setWidth 8,
      resultFlags (a - b - (BitVec.ofBool c).setWidth 8)
        (decide ((a.extractLsb' 0 4).toNat + ((b ^^^ 0xFF).extractLsb' 0 4).toNat + (!c).toNat > 15))
        (decide (a.toNat < b.toNat + c.toNat))) := by
  rw [sub8, add8_eq, sum9_complement_low, sum9_complement_carry]
  simp [resultFlags]

/-- A byte's low nibble and that of its complement make 15. -/
theorem lowNibble_add_complement (x : Byte) :
    (x.extractLsb' 0 4).toNat + ((x ^^^ 0xFF).extractLsb' 0 4).toNat = 15 := by
  have := x.isLt
  rw [← lowNibble_eq, ← lowNibble_eq, lowNibble, lowNibble, toNat_complement]
  omega

theorem sub8_self (x : Byte) :
    sub8 x x false = (0, { s := false, z := true, ac := true, p := true, cy := false }) := by
  rw [sub8_eq, lowNibble_add_complement]
  simp only [BitVec.sub_self, Bool.toNat_false, Nat.add_zero, Nat.lt_irrefl]
  rfl

/-- Settles O7, by the nine-bit sum of the complement: its low bits are the difference, its carry the inverse of the
borrow. -/
theorem sub8IsTheDifferenceWithBorrow : Obligations.Sub8IsTheDifferenceWithBorrow := by
  unfold Obligations.Sub8IsTheDifferenceWithBorrow
  exact ⟨fun a b c => ⟨sub8_eq a b c, sum9_complement_low a b c, sum9_complement_carry a b c⟩, sub8_self⟩

/-! ### Bytes put together from eight flags -/

/-- A byte from its bits, the one of bit 7 first. -/
def byteOfBits (b7 b6 b5 b4 b3 b2 b1 b0 : Bool) : Byte :=
  flagBit b7 ++ flagBit b6 ++ flagBit b5 ++ flagBit b4 ++ flagBit b3 ++ flagBit b2 ++ flagBit b1 ++ flagBit b0

theorem getLsbD_append_flagBit_zero {w : Nat} (x : BitVec w) (b : Bool) : (x ++ flagBit b).getLsbD 0 = b :=
  BitVec.getLsbD_concat_zero

theorem getLsbD_append_flagBit_succ {w : Nat} (x : BitVec w) (b : Bool) (k : Nat) :
    (x ++ flagBit b).getLsbD (k + 1) = x.getLsbD k :=
  BitVec.getLsbD_concat_succ

/-- The bits by number: bit `k` is `k` appended flags from the right. -/
theorem flagBits_bits (b7 b6 b5 b4 b3 b2 b1 b0 : Bool) :
    let v :=
      flagBit b7 ++ flagBit b6 ++ flagBit b5 ++ flagBit b4 ++ flagBit b3 ++ flagBit b2 ++ flagBit b1 ++ flagBit b0
    v.getLsbD 7 = b7 ∧ v.getLsbD 6 = b6 ∧ v.getLsbD 5 = b5 ∧ v.getLsbD 4 = b4 ∧
    v.getLsbD 3 = b3 ∧ v.getLsbD 2 = b2 ∧ v.getLsbD 1 = b1 ∧ v.getLsbD 0 = b0 := by
  have hb7 : (flagBit b7).getLsbD 0 = b7 := by simp [flagBit]
  simp only [getLsbD_append_flagBit_zero, getLsbD_append_flagBit_succ, hb7, and_self]

theorem byteOfBits_bits (b7 b6 b5 b4 b3 b2 b1 b0 : Bool) :
    let v := byteOfBits b7 b6 b5 b4 b3 b2 b1 b0
    v.getLsbD 7 = b7 ∧ v.getLsbD 6 = b6 ∧ v.getLsbD 5 = b5 ∧ v.getLsbD 4 = b4 ∧
    v.getLsbD 3 = b3 ∧ v.getLsbD 2 = b2 ∧ v.getLsbD 1 = b1 ∧ v.getLsbD 0 = b0 :=
  flagBits_bits b7 b6 b5 b4 b3 b2 b1 b0

/-- A byte is put together from its own bits. -/
theorem byteOfBits_getLsbD (v : Byte) :
    byteOfBits (v.getLsbD 7) (v.getLsbD 6) (v.getLsbD 5) (v.getLsbD 4)
      (v.getLsbD 3) (v.getLsbD 2) (v.getLsbD 1) (v.getLsbD 0) = v := by
  obtain ⟨h7, h6, h5, h4, h3, h2, h1, h0⟩ :=
    byteOfBits_bits (v.getLsbD 7) (v.getLsbD 6) (v.getLsbD 5) (v.getLsbD 4)
      (v.getLsbD 3) (v.getLsbD 2) (v.getLsbD 1) (v.getLsbD 0)
  apply BitVec.eq_of_getLsbD_eq
  intro k hk
  interval_cases k
  exacts [h0, h1, h2, h3, h4, h5, h6, h7]

/-- Three bits take any values. -/
theorem exists_threeBits : ∀ b2 b1 b0 : Bool, ∃ u : BitVec 3,
    u.getLsbD 2 = b2 ∧ u.getLsbD 1 = b1 ∧ u.getLsbD 0 = b0 := by decide

/-! ### The flag byte (R28) -/

theorem Flags.toByte_eq (f : Flags) (u : BitVec 3) :
    f.toByte u = byteOfBits f.s f.z (u.getLsbD 2) f.ac (u.getLsbD 1) f.p (u.getLsbD 0) f.cy := rfl

/-- The flags are read back whatever the bits 5, 3 and 1 are. -/
theorem Flags.ofByte_toByte (f : Flags) (u : BitVec 3) : Flags.ofByte (f.toByte u) = f := by
  obtain ⟨hs, hz, _, hac, _, hp, _, hcy⟩ :=
    byteOfBits_bits f.s f.z (u.getLsbD 2) f.ac (u.getLsbD 1) f.p (u.getLsbD 0) f.cy
  rw [Flags.toByte_eq, Flags.ofByte, hs, hz, hac, hp, hcy]

/-- Every byte is the flag byte of the flags it holds, with its own bits 5, 3 and 1. -/
theorem Flags.exists_toByte_ofByte (v : Byte) : ∃ u : BitVec 3, (Flags.ofByte v).toByte u = v := by
  obtain ⟨u, h5, h3, h1⟩ := exists_threeBits (v.getLsbD 5) (v.getLsbD 3) (v.getLsbD 1)
  refine ⟨u, ?_⟩
  rw [Flags.toByte_eq, h5, h3, h1]
  exact byteOfBits_getLsbD v

/-- Settles O8, by the bits of a byte put together from flags. -/
theorem flagByteHoldsTheFlags : Obligations.FlagByteHoldsTheFlags := by
  unfold Obligations.FlagByteHoldsTheFlags
  refine ⟨fun f u => ?_, Flags.exists_toByte_ofByte⟩
  obtain ⟨hs, hz, _, hac, _, hp, _, hcy⟩ :=
    byteOfBits_bits f.s f.z (u.getLsbD 2) f.ac (u.getLsbD 1) f.p (u.getLsbD 0) f.cy
  exact ⟨hs, hz, hac, hp, hcy, Flags.ofByte_toByte f u⟩

end Sys2Proof.Machine
end

section
/-! PROOFS. What one instruction leaves unchanged: the interrupt state, the flags, the registers and SP, and that memory
stays canonical; from the same facts about the operations the meanings are written with. -/

namespace Sys2Proof.Machine

/-! ### The interrupt state and the parameters, as one value -/

/-- The fields that only EI, DI, SIM, RIM, HLT and the sampling point may change, with the memory map and the inputs. -/
structure Control where
  inte : Bool
  m55 : Bool
  m65 : Bool
  m75 : Bool
  r75 : Bool
  sod : Bool
  halted : Bool
  trapIE : Option Bool
  memMap : MemMap
  env : List EnvInput

def State.control (s : State) : Control where
  inte := s.inte
  m55 := s.m55
  m65 := s.m65
  m75 := s.m75
  r75 := s.r75
  sod := s.sod
  halted := s.halted
  trapIE := s.trapIE
  memMap := s.memMap
  env := s.env

@[simp] theorem State.setReg_control (s : State) (r : Reg) (v : Byte) : (s.setReg r v).control = s.control := rfl
@[simp] theorem State.setA_control (s : State) (v : Byte) : (s.setA v).control = s.control := rfl
@[simp] theorem State.setFlags_control (s : State) (f : Flags) : (s.setFlags f).control = s.control := rfl
@[simp] theorem State.setCY_control (s : State) (cy : Bool) : (s.setCY cy).control = s.control := rfl
@[simp] theorem State.retire_control (s : State) (next : Addr) (t : Nat) : (s.retire next t).control = s.control := rfl
@[simp] theorem State.advance_control (s : State) (len t : Nat) : (s.advance len t).control = s.control := rfl
@[simp] theorem State.emit_control (s : State) (e : Event) : (s.emit e).control = s.control := rfl
@[simp] theorem State.drawPsw_control (s : State) : s.drawPsw.2.control = s.control := rfl
@[simp] theorem State.setPair_control (s : State) (rp : RegPair) (v : Addr) :
    (s.setPair rp v).control = s.control := by
  cases rp <;> rfl
@[simp] theorem State.envByte_control (s : State) : s.envByte.2.control = s.control := by
  obtain ⟨_, _, h⟩ := s.envByte_frame
  rw [h]
  rfl
@[simp] theorem State.load_control (s : State) (a : Addr) : (s.load a).2.control = s.control := by
  obtain ⟨_, _, _, h⟩ := s.load_frame a
  rw [h]
  rfl
@[simp] theorem State.store_control (s : State) (a : Addr) (v : Byte) : (s.store a v).control = s.control := by
  obtain ⟨_, _, h⟩ := s.store_frame a v
  rw [h]
  rfl
@[simp] theorem State.push16_control (s : State) (v : Addr) : (s.push16 v).control = s.control := by
  obtain ⟨_, _, _, h⟩ := s.push16_frame v
  rw [h]
  rfl
@[simp] theorem State.pop16_control (s : State) : s.pop16.2.control = s.control := by
  obtain ⟨_, _, _, _, h⟩ := s.pop16_frame
  rw [h]
  rfl
@[simp] theorem State.fetch_control (s : State) : s.fetch.2.control = s.control := by
  obtain ⟨_, _, _, h⟩ := s.fetch_frame
  rw [h]
  rfl

/-! ### drawPsw -/

@[simp] theorem State.drawPsw_regs (s : State) : s.drawPsw.2.regs = s.regs := rfl
@[simp] theorem State.drawPsw_flags (s : State) : s.drawPsw.2.flags = s.flags := rfl

/-! ### readOperand -/

/-- Reading an operand changes at most the answers, the trace and the draws. -/
theorem State.readOperand_frame (s : State) (src : Operand) :
    ∃ an tr dr, (s.readOperand src).2 = { s with answers := an, trace := tr, draws := dr } := by
  cases src with
  | mem => exact s.load_frame s.hl
  | reg r => exact ⟨s.answers, s.trace, s.draws, rfl⟩
  | imm data => exact ⟨s.answers, s.trace, s.draws, rfl⟩

@[simp] theorem State.readOperand_regs (s : State) (src : Operand) : (s.readOperand src).2.regs = s.regs := by
  obtain ⟨_, _, _, h⟩ := s.readOperand_frame src
  rw [h]
@[simp] theorem State.readOperand_sp (s : State) (src : Operand) : (s.readOperand src).2.sp = s.sp := by
  obtain ⟨_, _, _, h⟩ := s.readOperand_frame src
  rw [h]
@[simp] theorem State.readOperand_mem (s : State) (src : Operand) : (s.readOperand src).2.mem = s.mem := by
  obtain ⟨_, _, _, h⟩ := s.readOperand_frame src
  rw [h]
@[simp] theorem State.readOperand_control (s : State) (src : Operand) :
    (s.readOperand src).2.control = s.control := by
  obtain ⟨_, _, _, h⟩ := s.readOperand_frame src
  rw [h]
  rfl

/-! ### The shapes of meaning that several instructions share -/

section Shapes

variable (s : State)

@[simp] theorem State.accumulate_regs (f : Byte → Byte → Bool → Byte × Flags) (src : Operand) :
    (s.accumulate f src).regs =
      { s.regs with a := (f s.regs.a (s.readOperand src).1 (s.readOperand src).2.flags.cy).1 } := by
  simp [State.accumulate]
@[simp] theorem State.accumulate_sp (f : Byte → Byte → Bool → Byte × Flags) (src : Operand) :
    (s.accumulate f src).sp = s.sp := by simp [State.accumulate]
@[simp] theorem State.accumulate_mem (f : Byte → Byte → Bool → Byte × Flags) (src : Operand) :
    (s.accumulate f src).mem = s.mem := by simp [State.accumulate]
@[simp] theorem State.accumulate_eiInhibit (f : Byte → Byte → Bool → Byte × Flags) (src : Operand) :
    (s.accumulate f src).eiInhibit = false := rfl
@[simp] theorem State.accumulate_control (f : Byte → Byte → Bool → Byte × Flags) (src : Operand) :
    (s.accumulate f src).control = s.control := by simp [State.accumulate]

@[simp] theorem State.compare_regs (src : Operand) : (s.compare src).regs = s.regs := by simp [State.compare]
@[simp] theorem State.compare_sp (src : Operand) : (s.compare src).sp = s.sp := by simp [State.compare]
@[simp] theorem State.compare_mem (src : Operand) : (s.compare src).mem = s.mem := by simp [State.compare]
@[simp] theorem State.compare_eiInhibit (src : Operand) : (s.compare src).eiInhibit = false := rfl
@[simp] theorem State.compare_control (src : Operand) : (s.compare src).control = s.control := by
  simp [State.compare]

@[simp] theorem State.stepReg_regs (f : Byte → Flags → Byte × Flags) (r : Reg) :
    (s.stepReg f r).regs = s.regs.set r (f (s.reg r) s.flags).1 := rfl
@[simp] theorem State.stepReg_flags (f : Byte → Flags → Byte × Flags) (r : Reg) :
    (s.stepReg f r).flags = (f (s.reg r) s.flags).2 := rfl
@[simp] theorem State.stepReg_sp (f : Byte → Flags → Byte × Flags) (r : Reg) : (s.stepReg f r).sp = s.sp := rfl
@[simp] theorem State.stepReg_mem (f : Byte → Flags → Byte × Flags) (r : Reg) : (s.stepReg f r).mem = s.mem := rfl
@[simp] theorem State.stepReg_eiInhibit (f : Byte → Flags → Byte × Flags) (r : Reg) :
    (s.stepReg f r).eiInhibit = false := rfl
@[simp] theorem State.stepReg_control (f : Byte → Flags → Byte × Flags) (r : Reg) :
    (s.stepReg f r).control = s.control := rfl

@[simp] theorem State.stepMem_regs (f : Byte → Flags → Byte × Flags) : (s.stepMem f).regs = s.regs := by
  simp [State.stepMem]
@[simp] theorem State.stepMem_flags (f : Byte → Flags → Byte × Flags) :
    (s.stepMem f).flags = (f (s.load s.hl).1 s.flags).2 := rfl
@[simp] theorem State.stepMem_sp (f : Byte → Flags → Byte × Flags) : (s.stepMem f).sp = s.sp := by
  simp [State.stepMem]
@[simp] theorem State.stepMem_eiInhibit (f : Byte → Flags → Byte × Flags) : (s.stepMem f).eiInhibit = false := rfl
@[simp] theorem State.stepMem_control (f : Byte → Flags → Byte × Flags) : (s.stepMem f).control = s.control := by
  simp [State.stepMem]

/-- A conditional jump changes at most pc, eiInhibit and the T states. -/
theorem State.jumpIf_frame (cond : Cond) (target : Addr) :
    ∃ next t, s.jumpIf cond target = s.retire next t := by
  unfold State.jumpIf
  split
  · exact ⟨_, _, rfl⟩
  · exact ⟨_, _, rfl⟩

@[simp] theorem State.jumpIf_regs (cond : Cond) (target : Addr) : (s.jumpIf cond target).regs = s.regs := by
  obtain ⟨_, _, h⟩ := s.jumpIf_frame cond target
  rw [h, State.retire_regs]
@[simp] theorem State.jumpIf_flags (cond : Cond) (target : Addr) : (s.jumpIf cond target).flags = s.flags := by
  obtain ⟨_, _, h⟩ := s.jumpIf_frame cond target
  rw [h, State.retire_flags]
@[simp] theorem State.jumpIf_sp (cond : Cond) (target : Addr) : (s.jumpIf cond target).sp = s.sp := by
  obtain ⟨_, _, h⟩ := s.jumpIf_frame cond target
  rw [h, State.retire_sp]
@[simp] theorem State.jumpIf_mem (cond : Cond) (target : Addr) : (s.jumpIf cond target).mem = s.mem := by
  obtain ⟨_, _, h⟩ := s.jumpIf_frame cond target
  rw [h, State.retire_mem]
@[simp] theorem State.jumpIf_eiInhibit (cond : Cond) (target : Addr) :
    (s.jumpIf cond target).eiInhibit = false := by
  obtain ⟨_, _, h⟩ := s.jumpIf_frame cond target
  rw [h, State.retire_eiInhibit]
@[simp] theorem State.jumpIf_control (cond : Cond) (target : Addr) :
    (s.jumpIf cond target).control = s.control := by
  obtain ⟨_, _, h⟩ := s.jumpIf_frame cond target
  rw [h, State.retire_control]

@[simp] theorem State.callTo_regs (target : Addr) (len t : Nat) : (s.callTo target len t).regs = s.regs := by
  simp [State.callTo]
@[simp] theorem State.callTo_flags (target : Addr) (len t : Nat) : (s.callTo target len t).flags = s.flags := by
  simp [State.callTo]
@[simp] theorem State.callTo_eiInhibit (target : Addr) (len t : Nat) :
    (s.callTo target len t).eiInhibit = false := rfl
@[simp] theorem State.callTo_control (target : Addr) (len t : Nat) :
    (s.callTo target len t).control = s.control := by
  simp [State.callTo]

/-- A conditional call is the call, or goes on with the next instruction. -/
theorem State.callIf_cases (cond : Cond) (target : Addr) :
    s.callIf cond target = s.callTo target 3 18 ∨ s.callIf cond target = s.advance 3 9 := by
  unfold State.callIf
  split
  · exact .inl rfl
  · exact .inr rfl

/-- A conditional call that is not taken leaves SP alone. -/
theorem State.callIf_sp_of_not_holds {cond : Cond} (target : Addr) (h : s.flags.holds cond = false) :
    (s.callIf cond target).sp = s.sp := by simp [State.callIf, h]

@[simp] theorem State.callIf_regs (cond : Cond) (target : Addr) : (s.callIf cond target).regs = s.regs := by
  rcases s.callIf_cases cond target with h | h <;> simp [h]
@[simp] theorem State.callIf_flags (cond : Cond) (target : Addr) : (s.callIf cond target).flags = s.flags := by
  rcases s.callIf_cases cond target with h | h <;> simp [h]
@[simp] theorem State.callIf_eiInhibit (cond : Cond) (target : Addr) :
    (s.callIf cond target).eiInhibit = false := by
  rcases s.callIf_cases cond target with h | h <;> simp [h]
@[simp] theorem State.callIf_control (cond : Cond) (target : Addr) :
    (s.callIf cond target).control = s.control := by
  rcases s.callIf_cases cond target with h | h <;> simp [h]

@[simp] theorem State.returnFrom_regs (t : Nat) : (s.returnFrom t).regs = s.regs := by simp [State.returnFrom]
@[simp] theorem State.returnFrom_flags (t : Nat) : (s.returnFrom t).flags = s.flags := by simp [State.returnFrom]
@[simp] theorem State.returnFrom_mem (t : Nat) : (s.returnFrom t).mem = s.mem := by simp [State.returnFrom]
@[simp] theorem State.returnFrom_eiInhibit (t : Nat) : (s.returnFrom t).eiInhibit = false := rfl
@[simp] theorem State.returnFrom_control (t : Nat) : (s.returnFrom t).control = s.control := by
  simp [State.returnFrom]

/-- A conditional return is the return, or goes on with the next instruction. -/
theorem State.returnIf_cases (cond : Cond) :
    s.returnIf cond = s.returnFrom 12 ∨ s.returnIf cond = s.advance 1 6 := by
  unfold State.returnIf
  split
  · exact .inl rfl
  · exact .inr rfl

/-- A conditional return that is not taken leaves SP alone. -/
theorem State.returnIf_sp_of_not_holds {cond : Cond} (h : s.flags.holds cond = false) :
    (s.returnIf cond).sp = s.sp := by simp [State.returnIf, h]

@[simp] theorem State.returnIf_regs (cond : Cond) : (s.returnIf cond).regs = s.regs := by
  rcases s.returnIf_cases cond with h | h <;> simp [h]
@[simp] theorem State.returnIf_flags (cond : Cond) : (s.returnIf cond).flags = s.flags := by
  rcases s.returnIf_cases cond with h | h <;> simp [h]
@[simp] theorem State.returnIf_mem (cond : Cond) : (s.returnIf cond).mem = s.mem := by
  rcases s.returnIf_cases cond with h | h <;> simp [h]
@[simp] theorem State.returnIf_eiInhibit (cond : Cond) : (s.returnIf cond).eiInhibit = false := by
  rcases s.returnIf_cases cond with h | h <;> simp [h]
@[simp] theorem State.returnIf_control (cond : Cond) : (s.returnIf cond).control = s.control := by
  rcases s.returnIf_cases cond with h | h <;> simp [h]

end Shapes

/-! ### The interrupt state under an instruction (R33, R37 to R42) -/

/-- The instructions that have a field of the interrupt state to write. -/
def controlWritten : Instr → Bool
  | .ei | .di | .sim | .rim | .hlt => true
  | _ => false

/-- Every other instruction is made of operations that leave the interrupt state, the map and the inputs alone. -/
theorem exec_control {i : Instr} {s t : State} (h : exec i s = .next t) (hi : controlWritten i = false) :
    t.control = s.control := by
  cases i with
  | ei | di | sim | rim | hlt => cases hi
  | undefinedOp op => cases h
  | _ =>
    cases h
    simp

/-- Every instruction but EI ends with eiInhibit at 0 (R41). -/
theorem exec_eiInhibit {i : Instr} {s t : State} (h : exec i s = .next t) (hi : i ≠ .ei) : t.eiInhibit = false := by
  cases i with
  | ei => exact absurd rfl hi
  | undefinedOp op => cases h
  | _ =>
    cases h
    simp

/-- Settles O55: EI, DI, SIM, RIM and HLT write what the statement gives them, and no other instruction writes the
interrupt state. -/
theorem onlyTheirInstructionsChangeInterruptState : Obligations.OnlyTheirInstructionsChangeInterruptState := by
  unfold Obligations.OnlyTheirInstructionsChangeInterruptState
  intro i s t h
  cases hi : controlWritten i with
  | true =>
    cases i with
    | ei | di | sim | rim | hlt =>
      cases h
      simp
    | _ => cases hi
  | false =>
    have hc := exec_control h hi
    have hei : i ≠ .ei := by
      rintro rfl
      cases hi
    have hinhibit := exec_eiInhibit h hei
    exact ⟨fun _ _ => congrArg Control.inte hc,
      fun _ => ⟨congrArg Control.m55 hc, congrArg Control.m65 hc, congrArg Control.m75 hc, congrArg Control.r75 hc,
        congrArg Control.sod hc⟩,
      fun _ => congrArg Control.trapIE hc, fun _ => congrArg Control.halted hc, by simp [hinhibit, hei],
      congrArg Control.memMap hc, congrArg Control.env hc⟩

/-! ### The flags under an instruction (R32) -/

/-- Writing CY leaves the other four flags alone. -/
theorem bit_with_cy_of_ne (g : Flags) (cy : Bool) {f : FlagName} (h : f ≠ .cy) :
    ({ g with cy := cy } : Flags).bit f = g.bit f := by
  cases f with
  | cy => exact absurd rfl h
  | s | z | ac | p => rfl

theorem inr8_cy (v : Byte) (f : Flags) : (inr8 v f).2.cy = f.cy := rfl

theorem dcr8_cy (v : Byte) (f : Flags) : (dcr8 v f).2.cy = f.cy := rfl

/-- Settles O54, row by row of the table of flag side effects. -/
theorem onlyTheListedFlagsChange : Obligations.OnlyTheListedFlagsChange := by
  unfold Obligations.OnlyTheListedFlagsChange
  intro i s t f h hf
  cases i with
  | add _ | addM | adi _ | adc _ | adcM | aci _ | sub _ | subM | sui _ | sbb _ | sbbM | sbi _ | cmp _ | cmpM | cpi _
  | ana _ | anaM | ani _ | xra _ | xraM | xri _ | ora _ | oraM | ori _ | daa | popPsw =>
    cases hf
  | inr _ | inrM =>
    obtain rfl : f = .cy := by simpa [flagWritten] using hf
    cases h
    simp [Flags.bit, inr8_cy]
  | dcr _ | dcrM =>
    obtain rfl : f = .cy := by simpa [flagWritten] using hf
    cases h
    simp [Flags.bit, dcr8_cy]
  | dad _ | rlc | rrc | ral | rar | stc | cmc =>
    have hcy : f ≠ .cy := by simpa [flagWritten] using hf
    cases h
    simp [bit_with_cy_of_ne _ _ hcy]
  | undefinedOp op => cases h
  | _ =>
    cases h
    simp

/-! ### The registers and SP under an instruction (R22, R24) -/

/-- A register is read from the register file. -/
theorem State.reg_congr {s t : State} (h : t.regs = s.regs) (r : Reg) : t.reg r = s.reg r := by
  cases r <;> simp [State.reg, h]

@[simp] theorem State.advance_reg (s : State) (len t : Nat) (r : Reg) : (s.advance len t).reg r = s.reg r :=
  State.reg_congr rfl r
@[simp] theorem State.setCY_reg (s : State) (cy : Bool) (r : Reg) : (s.setCY cy).reg r = s.reg r :=
  State.reg_congr rfl r
@[simp] theorem State.load_reg (s : State) (a : Addr) (r : Reg) : (s.load a).2.reg r = s.reg r :=
  State.reg_congr (s.load_regs a) r
@[simp] theorem State.store_reg (s : State) (a : Addr) (v : Byte) (r : Reg) : (s.store a v).reg r = s.reg r :=
  State.reg_congr (s.store_regs a v) r
@[simp] theorem State.pop16_reg (s : State) (r : Reg) : s.pop16.2.reg r = s.reg r :=
  State.reg_congr s.pop16_regs r

/-- Writing one register leaves every other one alone. -/
theorem State.setReg_reg_other (s : State) {dst r : Reg} (v : Byte) (hr : r ≠ dst) :
    (s.setReg dst v).reg r = s.reg r := by
  cases dst <;> cases r <;> simp [State.reg, Regs.set] at hr ⊢

/-- Incrementing or decrementing one register leaves every other one alone. -/
theorem State.stepReg_reg_other (s : State) (f : Byte → Flags → Byte × Flags) {dst r : Reg} (hr : r ≠ dst) :
    (s.stepReg f dst).reg r = s.reg r :=
  (State.reg_congr (s.stepReg_regs f dst) r).trans (s.setReg_reg_other (f (s.reg dst) s.flags).1 hr)

/-- Where the register file differs in A at most, every other register is as before. -/
theorem State.reg_of_regs_a {s t : State} {r : Reg} (h : t.regs = { s.regs with a := t.regs.a }) (hr : r ≠ .a) :
    t.reg r = s.reg r :=
  (State.reg_congr (s := s.setReg .a t.regs.a) h r).trans (s.setReg_reg_other _ hr)

/-- Writing a pair leaves every register outside it alone. -/
theorem State.setPair_reg_other (s : State) {rp : RegPair} {r : Reg} (v : Addr) (hr : inPair rp r = false) :
    (s.setPair rp v).reg r = s.reg r := by
  cases rp <;> cases r <;> simp [State.reg, inPair] at hr ⊢

/-- Writing a pair other than SP leaves SP alone. -/
theorem State.setPair_sp_other (s : State) {rp : RegPair} (v : Addr) (h : (rp == .sp) = false) :
    (s.setPair rp v).sp = s.sp := by
  cases rp with
  | bc | de | hl => rfl
  | sp => cases h

/-- Every instruction leaves alone every general register but its destination. -/
theorem exec_reg {i : Instr} {s t : State} (h : exec i s = .next t) {r : Reg} (hr : regWritten i r = false) :
    t.reg r = s.reg r := by
  cases i with
  | add _ | addM | adi _ | adc _ | adcM | aci _ | sub _ | subM | sui _ | sbb _ | sbbM | sbi _ | ana _ | anaM | ani _
  | xra _ | xraM | xri _ | ora _ | oraM | ori _ | daa | cma | rlc | rrc | ral | rar | lda _ | ldax _ | inPort _ | rim
  | popPsw =>
    cases h
    exact State.reg_of_regs_a (by simp) (ne_of_beq_false hr)
  | inr _ | dcr _ =>
    cases h
    exact s.stepReg_reg_other _ (ne_of_beq_false hr)
  | mov dst _ | movFromM dst | mvi dst _ =>
    have hdst : r ≠ dst := ne_of_beq_false hr
    cases h
    simp [State.setReg_reg_other _ _ hdst]
  | inx _ | dcx _ | lxi _ _ | pop _ =>
    cases h
    simp [State.setPair_reg_other _ _ hr]
  | dad _ | lhld _ | xthl =>
    have hhl : inPair .hl r = false := hr
    cases h
    simp [State.setPair_reg_other _ _ hhl]
  | xchg =>
    obtain ⟨hhl, hde⟩ := Bool.or_eq_false_iff.mp hr
    cases h
    simp [State.setPair_reg_other _ _ hhl, State.setPair_reg_other _ _ hde]
  | undefinedOp _ => cases h
  | _ =>
    cases h
    exact State.reg_congr (by simp) r

/-- Every instruction that does not move SP leaves it alone; a conditional call or return moves it when taken. -/
theorem exec_sp {i : Instr} {s t : State} (h : exec i s = .next t) (hs : spWritten i s = false) : t.sp = s.sp := by
  cases i with
  | sphl | push _ | pushPsw | pop _ | popPsw | call _ | ret | rst _ => cases hs
  | lxi _ _ | inx _ | dcx _ =>
    cases h
    exact s.setPair_sp_other _ hs
  | cnz _ | cz _ | cnc _ | cc _ | cpo _ | cpe _ | cp _ | cm _ =>
    cases h
    exact s.callIf_sp_of_not_holds _ hs
  | rnz | rz | rnc | rc | rpo | rpe | rp | rm =>
    cases h
    exact s.returnIf_sp_of_not_holds hs
  | undefinedOp _ => cases h
  | _ =>
    cases h
    simp

/-- Settles O52, by the two tables of destinations. -/
theorem onlyDestinationRegistersChange : Obligations.OnlyDestinationRegistersChange := by
  unfold Obligations.OnlyDestinationRegistersChange
  exact fun i s t h => ⟨fun r => exec_reg h, exec_sp h⟩

/-! ### Memory under an instruction (R43) -/

theorem State.stepMem_wf {s : State} (f : Byte → Flags → Byte × Flags) (hw : Memory.wf s.mem = true) :
    Memory.wf (s.stepMem f).mem = true :=
  State.store_wf _ _ (by simpa using hw)

theorem State.callTo_wf {s : State} (target : Addr) (len t : Nat) (hw : Memory.wf s.mem = true) :
    Memory.wf (s.callTo target len t).mem = true :=
  State.push16_wf _ hw

theorem State.callIf_wf {s : State} (cond : Cond) (target : Addr) (hw : Memory.wf s.mem = true) :
    Memory.wf (s.callIf cond target).mem = true := by
  rcases s.callIf_cases cond target with h | h <;> rw [h]
  · exact State.callTo_wf _ _ _ hw
  · exact hw

/-- Every instruction keeps memory in canonical form: it stores through `store` and `push16`, or not at all. -/
theorem exec_wf {i : Instr} {s t : State} (h : exec i s = .next t) (hw : Memory.wf s.mem = true) :
    Memory.wf t.mem = true := by
  cases i with
  | inrM | dcrM =>
    cases h
    exact State.stepMem_wf _ hw
  | movToM _ | mviM _ | sta _ | stax _ =>
    cases h
    exact State.store_wf _ _ hw
  | shld _ =>
    cases h
    exact State.store_wf _ _ (State.store_wf _ _ hw)
  | xthl =>
    cases h
    exact State.store_wf _ _ (State.store_wf _ _ (by simpa using hw))
  | push _ | pushPsw =>
    cases h
    exact State.push16_wf _ hw
  | call _ | rst _ =>
    cases h
    exact State.callTo_wf _ _ _ hw
  | cnz _ | cz _ | cnc _ | cc _ | cpo _ | cpe _ | cp _ | cm _ =>
    cases h
    exact State.callIf_wf _ _ hw
  | undefinedOp _ => cases h
  | _ =>
    cases h
    simpa using hw

end Sys2Proof.Machine
end

section
/-! PROOFS. The sampling point and the step: the invariant, `NoInterrupts`, and maskable interrupts held off; then the
control instructions, RIM, and the reset state. -/

namespace Sys2Proof.Machine

open Sys2Proof.Claims

/-! ### Taking an interrupt -/

@[simp] theorem State.takeInterrupt_inte (s : State) (source : IntSource) (target : Addr) :
    (s.takeInterrupt source target).inte = false := by
  obtain ⟨_, _, h⟩ := s.takeInterrupt_frame source target
  rw [h]
  rfl
@[simp] theorem State.takeInterrupt_eiInhibit (s : State) (source : IntSource) (target : Addr) :
    (s.takeInterrupt source target).eiInhibit = false := by
  obtain ⟨_, _, h⟩ := s.takeInterrupt_frame source target
  rw [h]
  rfl
@[simp] theorem State.takeInterrupt_env (s : State) (source : IntSource) (target : Addr) :
    (s.takeInterrupt source target).env = s.env := by
  obtain ⟨_, _, h⟩ := s.takeInterrupt_frame source target
  rw [h]
  rfl

/-- Taking an interrupt latches no RST 7.5 request. -/
theorem State.takeInterrupt_r75 {s : State} (source : IntSource) (target : Addr) (hr : s.r75 = false) :
    (s.takeInterrupt source target).r75 = false := by
  obtain ⟨_, _, h⟩ := s.takeInterrupt_frame source target
  rw [h]
  simp [State.acknowledge, hr]

/-! ### The sampling point (R295) -/

/-- A latched RST 7.5 request that could be taken leaves no sampling point without a source. -/
theorem State.takeable75_of_chosenSource_none {s : State} {e : EnvInput} (h : s.chosenSource e = none) :
    s.takeable75 = false := by
  by_contra ht
  simp only [State.takeable75, Bool.not_eq_false, Bool.and_eq_true, Bool.not_eq_true'] at ht
  obtain ⟨⟨⟨hinte, hinhibit⟩, hr75⟩, hm75⟩ := ht
  simp only [State.chosenSource, hinte, hinhibit, hr75, hm75] at h
  split at h <;> cases h

/-- With no TRAP, and INTE clear or eiInhibit set, no source is chosen. -/
theorem State.chosenSource_none {s : State} {e : EnvInput} (htrap : e.trap = false)
    (hoff : s.inte = false ∨ s.eiInhibit = true) : s.chosenSource e = none := by
  rcases hoff with h | h <;> simp [State.chosenSource, htrap, h]

/-- A sampling point with no TRAP, and INTE clear or eiInhibit set, takes nothing. -/
theorem State.sample_off {s : State} (htrap : s.input.trap = false) (hoff : s.inte = false ∨ s.eiInhibit = true) :
    s.sample = .next (nothingTaken s) :=
  State.sample_none (State.chosenSource_none htrap hoff)

/-- A sampling point uses up the current input. -/
theorem State.sample_env {s t : State} (h : s.sample = .next t) : t.env = s.env.tail := by
  rcases State.sample_cases h with ⟨_, rfl⟩ | ⟨_, _, _, rfl⟩
  · rfl
  · exact State.takeInterrupt_env _ _ _

/-- With no RST 7.5 edge a sampling point leaves a clear R75 clear. -/
theorem State.sample_r75 {s t : State} (h : s.sample = .next t) (hr : s.r75 = false) (he : s.input.e75 = false) :
    t.r75 = false := by
  have hlatched : s.latched.r75 = false := by simp [State.latched, hr, he]
  rcases State.sample_cases h with ⟨_, rfl⟩ | ⟨_, _, _, rfl⟩
  · exact hlatched
  · exact State.takeInterrupt_r75 _ _ hlatched

/-- After a sampling point the invariant holds, wherever its first two parts did before: the point itself leaves no
latched request that could be taken. -/
theorem State.sample_inv {s t : State} (h : s.sample = .next t) (hw : Memory.wf s.mem = true)
    (hei : s.eiInhibit = true → s.inte = true ∧ s.halted = false) : t.Inv := by
  rcases State.sample_cases h with ⟨hnone, rfl⟩ | ⟨source, target, _, rfl⟩
  · exact ⟨hw, hei, State.takeable75_of_chosenSource_none hnone⟩
  · exact ⟨State.takeInterrupt_wf _ _ hw, by simp, by simp [State.takeable75]⟩

/-! ### One instruction between two sampling points -/

@[simp] theorem State.fetch_inte (s : State) : s.fetch.2.inte = s.inte := congrArg Control.inte s.fetch_control
@[simp] theorem State.fetch_r75 (s : State) : s.fetch.2.r75 = s.r75 := congrArg Control.r75 s.fetch_control
@[simp] theorem State.fetch_halted (s : State) : s.fetch.2.halted = s.halted := congrArg Control.halted s.fetch_control
@[simp] theorem State.fetch_env (s : State) : s.fetch.2.env = s.env := congrArg Control.env s.fetch_control

theorem State.fetch_wf {s : State} (hw : Memory.wf s.mem = true) : Memory.wf s.fetch.2.mem = true := by
  obtain ⟨_, _, _, h⟩ := s.fetch_frame
  rwa [h]

/-- An instruction of a running machine that sets eiInhibit is EI, which also sets INTE and does not halt (R214). -/
theorem exec_inhibits {i : Instr} {s t : State} (h : exec i s = .next t) (hh : s.halted = false)
    (ht : t.eiInhibit = true) : t.inte = true ∧ t.halted = false := by
  by_cases hi : i = .ei
  · subst hi
    cases h
    exact ⟨rfl, hh⟩
  · rw [exec_eiInhibit h hi] at ht
    cases ht

/-- No instruction uses up an input. -/
theorem exec_env {i : Instr} {s t : State} (h : exec i s = .next t) : t.env = s.env := by
  obtain ⟨_, _, _, _, _, _, henv⟩ := onlyTheirInstructionsChangeInterruptState i s t h
  exact henv

/-- No instruction sets R75; SIM may clear it. -/
theorem exec_r75 {i : Instr} {s t : State} (h : exec i s = .next t) (hr : s.r75 = false) : t.r75 = false := by
  by_cases hi : i = .sim
  · subst hi
    cases h
    simp [hr]
  · obtain ⟨_, hsim, _⟩ := onlyTheirInstructionsChangeInterruptState i s t h
    obtain ⟨_, _, _, hkept, _⟩ := hsim hi
    rw [hkept, hr]

/-- No instruction but EI sets INTE. -/
theorem exec_inte {i : Instr} {s t : State} (h : exec i s = .next t) (hi : i ≠ .ei) (hinte : s.inte = false) :
    t.inte = false := by
  by_cases hdi : i = .di
  · subst hdi
    cases h
    rfl
  · obtain ⟨hkept, _⟩ := onlyTheirInstructionsChangeInterruptState i s t h
    rw [hkept hi hdi, hinte]

/-! ### The invariant of every step -/

theorem State.applyReset_inv {s : State} (hw : Memory.wf s.mem = true) : s.applyReset.Inv :=
  ⟨hw, fun h => Bool.noConfusion h, rfl⟩

/-- Every step keeps the invariant, by what a step can answer. -/
theorem step_inv {s t : State} (hinv : s.Inv) (h : step s = .next t) : t.Inv := by
  obtain ⟨hw, hei, _⟩ := hinv
  rcases step_cases h with ⟨_, rfl⟩ | ⟨_, _, hsample⟩ | ⟨_, hh, u, hexec, hsample⟩
  · exact State.applyReset_inv hw
  · exact State.sample_inv hsample hw hei
  · exact State.sample_inv hsample (exec_wf hexec (State.fetch_wf hw)) (exec_inhibits hexec (by simpa using hh))

/-- The current input is read from the list of inputs. -/
theorem State.input_congr {s t : State} (h : t.env = s.env) : t.input = s.input := by
  rw [State.input, State.input, h]

/-- Every step uses up one input. -/
theorem step_env {s t : State} (h : step s = .next t) : t.env = s.env.tail := by
  rcases step_cases h with ⟨_, rfl⟩ | ⟨_, _, hsample⟩ | ⟨_, _, u, hexec, hsample⟩
  · rfl
  · exact State.sample_env hsample
  · rw [State.sample_env hsample, exec_env hexec, State.fetch_env]

/-- `NoInterrupts` speaks of every input to come, so it holds of the inputs that a step leaves. -/
theorem State.noInterrupts_of_env_tail {s t : State} (h : t.env = s.env.tail) (hn : s.noInterrupts = true) :
    t.noInterrupts = true := by
  simp only [State.noInterrupts, List.all_eq_true] at hn ⊢
  intro e he
  rw [h] at he
  exact hn e (List.mem_of_mem_tail he)

/-- With no RST 7.5 edge in its input a step leaves a clear R75 clear. -/
theorem step_r75 {s t : State} (h : step s = .next t) (he : s.input.e75 = false) (hr : s.r75 = false) :
    t.r75 = false := by
  rcases step_cases h with ⟨_, rfl⟩ | ⟨_, _, hsample⟩ | ⟨_, _, u, hexec, hsample⟩
  · rfl
  · exact State.sample_r75 hsample hr he
  · have hinput : u.input = s.input := State.input_congr ((exec_env hexec).trans s.fetch_env)
    exact State.sample_r75 hsample (exec_r75 hexec (by simpa using hr)) (by rw [hinput, he])

/-- Settles O49, by what a step can answer: the sampling point that ends it restores the invariant, and it uses up one
quiet input. -/
theorem everyStepKeepsTheInvariant : Obligations.EveryStepKeepsTheInvariant := by
  unfold Obligations.EveryStepKeepsTheInvariant
  refine ⟨fun s t => step_inv, fun s t hn h => ⟨State.noInterrupts_of_env_tail (step_env h) hn, ?_⟩⟩
  obtain ⟨_, he75, _⟩ := EnvInput.quiet_fields (State.noInterrupts_input hn)
  exact step_r75 h he75

/-- Settles O48, by the canonical form of the empty memory. -/
theorem resetStateMeetsTheInvariant : Obligations.ResetStateMeetsTheInvariant :=
  ⟨reset_memory_wf, fun h => Bool.noConfusion h, rfl⟩

/-- Settles O47: the values of R46 are those of the reset state. -/
theorem resetStateIsTheSpecs : Obligations.ResetStateIsTheSpecs :=
  ⟨rfl, rfl, rfl, rfl, rfl, rfl, rfl, rfl, rfl, rfl⟩

/-! ### Maskable interrupts held off (R213, R214, R325) -/

/-- The step of a running machine whose instruction at pc is one byte of RAM or ROM. -/
theorem step_oneByte {s u : State} (hh : s.halted = false) (hr : s.input.reset = false)
    (hplain : s.isPlain s.pc = true) (hlen : opLength (s.peek s.pc) = 1)
    (hexec : exec (decodeBytes (s.peek s.pc) 0 0) s = .next u) : step s = u.sample := by
  have hload : s.load s.pc = (s.peek s.pc, s) := State.load_plain hplain
  have hfetch : s.fetch = (decodeBytes (s.peek s.pc) 0 0, s) := by
    rw [State.fetch_of_opLength_one (by rwa [hload]), hload]
  rw [step_running hh hr, hfetch, hexec]
  rfl

/-- The state EI answers (R214). -/
def afterEi (s : State) : State := { s.advance 1 4 with inte := true, eiInhibit := true }

/-- The state DI answers (R213). -/
def afterDi (s : State) : State := { s.advance 1 4 with inte := false }

theorem exec_ei (s : State) : exec .ei s = .next (afterEi s) := rfl

theorem exec_di (s : State) : exec .di s = .next (afterDi s) := rfl

/-- The step that executes EI takes no maskable interrupt: eiInhibit is set at its sampling point. -/
theorem step_ei {s : State} (hh : s.halted = false) (hr : s.input.reset = false) (htrap : s.input.trap = false)
    (hplain : s.isPlain s.pc = true) (hop : s.peek s.pc = 0xFB) : step s = .next (nothingTaken (afterEi s)) := by
  have hstep : step s = (afterEi s).sample :=
    step_oneByte hh hr hplain (by rw [hop]; rfl) (by rw [hop]; exact exec_ei s)
  rw [hstep]
  exact State.sample_off htrap (.inr rfl)

/-- The step that executes DI takes no maskable interrupt: INTE is clear at its sampling point. -/
theorem step_di {s : State} (hh : s.halted = false) (hr : s.input.reset = false) (htrap : s.input.trap = false)
    (hplain : s.isPlain s.pc = true) (hop : s.peek s.pc = 0xF3) : step s = .next (nothingTaken (afterDi s)) := by
  have hstep : step s = (afterDi s).sample :=
    step_oneByte hh hr hplain (by rw [hop]; rfl) (by rw [hop]; exact exec_di s)
  rw [hstep]
  exact State.sample_off htrap (.inl rfl)

/-- A halted machine with INTE clear only uses up its input. -/
theorem step_halted_off {s : State} (hh : s.halted = true) (hr : s.input.reset = false) (htrap : s.input.trap = false)
    (hinte : s.inte = false) : step s = .next (nothingTaken s) := by
  rw [step, if_neg (by simp [hr]), if_pos hh]
  exact State.sample_off htrap (.inl hinte)

/-- Settles O44, by the sampling point with INTE clear or eiInhibit set. -/
theorem eiAndDiHoldMaskableInterruptsOff : Obligations.EiAndDiHoldMaskableInterruptsOff := by
  unfold Obligations.EiAndDiHoldMaskableInterruptsOff
  refine ⟨fun s hh hr htrap hplain => ⟨fun hop => ?_, fun hop => ?_⟩, fun s hinte hr htrap => ⟨fun hh => ?_, ?_⟩⟩
  · exact ⟨_, step_ei hh hr htrap hplain hop, rfl, rfl, rfl, rfl, rfl, rfl⟩
  · exact ⟨_, step_di hh hr htrap hplain hop, rfl, rfl, rfl, rfl, rfl, rfl⟩
  · exact step_halted_off hh hr htrap hinte
  · intro hh hi u hexec
    have huinte : u.inte = false := exec_inte hexec hi (by simpa using hinte)
    have hinput : u.input = s.input := State.input_congr ((exec_env hexec).trans s.fetch_env)
    refine ⟨?_, huinte, hinput⟩
    rw [step_running hh hr, hexec]
    exact State.sample_off (by rw [hinput, htrap]) (.inl huinte)

/-! ### NOP, HLT, DI, EI and RIM (R211 to R215) -/

/-- Settles O24: each encoding decodes to its instruction, whose answer is the state written out. -/
theorem controlInstructionsWriteTheirFlipFlop : Obligations.ControlInstructionsWriteTheirFlipFlop := by
  unfold Obligations.ControlInstructionsWriteTheirFlipFlop
  exact fun s => ⟨⟨rfl, rfl⟩, ⟨rfl, rfl⟩, ⟨rfl, exec_di s⟩, ⟨rfl, exec_ei s⟩⟩

theorem State.rimByte_eq (s : State) (sid : Bool) :
    s.rimByte sid = byteOfBits sid s.r75 s.input.rim65 s.input.rim55 (s.trapIE.getD s.inte) s.m75 s.m65 s.m55 := rfl

/-- What RIM answers (R215). -/
theorem exec_rim (s : State) : exec .rim s = .next
    { s with
      regs := { s.regs with a := s.rimByte s.readSid.1 }, trapIE := none, pc := s.pc + 1, eiInhibit := false
      draws := s.readSid.2.draws, tstates := s.tstates + 4 } := by
  obtain ⟨_, h⟩ := s.readSid_frame
  have hrim : exec .rim s = execRim s := rfl
  rw [hrim, execRim, h]
  rfl

theorem State.readSid_cons {s : State} {e : EnvInput} {rest : List EnvInput} (h : s.env = e :: rest) :
    s.readSid = (e.sid, s) := by
  simp [State.readSid, h]

theorem State.readSid_nil {s : State} (h : s.env = []) :
    s.readSid = (Config.sidLevel s.draws, { s with draws := s.draws + 1 }) := by
  simp [State.readSid, h]

theorem State.input_cons {s : State} {e : EnvInput} {rest : List EnvInput} (h : s.env = e :: rest) : s.input = e := by
  simp [State.input, h]

/-- Settles O25, by the bits of the byte RIM assembles. -/
theorem rimReadsTheInterruptByte : Obligations.RimReadsTheInterruptByte := by
  unfold Obligations.RimReadsTheInterruptByte
  intro s
  refine ⟨s.rimByte s.readSid.1, s.readSid.2.draws, ⟨rfl, exec_rim s⟩, ?_⟩
  rw [State.rimByte_eq]
  obtain ⟨h7, h6, h5, h4, h3, h2, h1, h0⟩ := byteOfBits_bits s.readSid.1 s.r75 s.input.rim65 s.input.rim55
    (s.trapIE.getD s.inte) s.m75 s.m65 s.m55
  refine ⟨fun e rest henv => ?_, fun henv => ?_, fun hquiet => ?_, h6, ?_, h2, h1, h0⟩
  · rw [h7, h5, h4, State.readSid_cons henv, State.input_cons henv]
    exact ⟨rfl, rfl, rfl, rfl⟩
  · rw [State.readSid_nil henv]
  · obtain ⟨_, _, _, _, h65, h55, _⟩ := EnvInput.quiet_fields (State.noInterrupts_input hquiet)
    exact ⟨h5.trans h65, h4.trans h55⟩
  · rw [h3]
    cases s.trapIE <;> rfl

end Sys2Proof.Machine
end

section
/-! PROOFS. Memory along a run: an access by the kind of its address (20_memory.md R57), the bytes an instruction
stores to (R55), and, by one induction over runs, that bytes outside RAM stay and that the trace and the counters only
grow. -/

namespace Sys2Proof.Machine

open Sys2Proof.Claims

/-! ### The kind of an address (R57) -/

/-- Ranges that do not hold an address play no part in its kind. -/
theorem MemMap.kindAt_append {before after : MemMap} {a : Addr} (h : ∀ q ∈ before, ¬ inRegion q a) :
    MemMap.kindAt (before ++ after) a.toNat = MemMap.kindAt after a.toNat := by
  induction before with
  | nil => rfl
  | cons r rest ih =>
    obtain ⟨hr, hrest⟩ := List.forall_mem_cons.mp h
    exact (if_neg hr).trans (ih hrest)

theorem MemMap.kindAt_cons {r : Region} {a : Addr} (h : inRegion r a) (after : MemMap) :
    MemMap.kindAt (r :: after) a.toNat = r.kind := if_pos h

/-- An address in no range is RAM. -/
theorem State.kindAt_of_no_region {s : State} {a : Addr} (h : ∀ r ∈ s.memMap, ¬ inRegion r a) :
    s.kindAt a = .ram := by
  have hmap := MemMap.kindAt_append (after := []) h
  rwa [List.append_nil] at hmap

/-- With no range every address is RAM. -/
theorem State.kindAt_of_memMap_nil {s : State} (h : s.memMap = []) (a : Addr) : s.kindAt a = .ram :=
  State.kindAt_of_no_region (by simp [h])

/-- An address is of the kind of the first range that holds it. -/
theorem State.kindAt_of_first_region {s : State} {a : Addr} {before after : List Region} {r : Region}
    (hmap : s.memMap = before ++ r :: after) (hbefore : ∀ q ∈ before, ¬ inRegion q a) (hr : inRegion r a) :
    s.kindAt a = r.kind := by
  rw [State.kindAt, hmap, MemMap.kindAt_append hbefore, MemMap.kindAt_cons hr]

/-- The kind of an address is a matter of the memory map. -/
theorem State.kindAt_congr {s t : State} (h : t.memMap = s.memMap) (a : Addr) : t.kindAt a = s.kindAt a := by
  rw [State.kindAt, State.kindAt, h]

/-! ### One access by kind (R57) -/

theorem State.isPlain_of_ram_or_rom {s : State} {a : Addr} (h : s.kindAt a = .ram ∨ s.kindAt a = .rom) :
    s.isPlain a = true := by
  rcases h with h | h <;> simp [State.isPlain, h]

/-- A read of a device appends its event to the trace of before: drawing the byte adds none. -/
theorem State.load_device_trace {s : State} {a : Addr} (h : s.kindAt a = .device) :
    s.load a = (s.envByte.1, { s.envByte.2 with trace := s.trace ++ [.memRead a s.envByte.1] }) := by
  rw [State.load_device h, State.emit, State.envByte_trace]

/-- Settles O37, by the access at each kind, and the kind of an address by the ranges before the one that holds it. -/
theorem accessesFollowTheMemoryKind : Obligations.AccessesFollowTheMemoryKind := by
  unfold Obligations.AccessesFollowTheMemoryKind
  refine ⟨fun s a => ⟨fun h => ?_, State.load_absent, State.load_device_trace⟩,
    fun s a v hw => ⟨fun h => ⟨?_, fun b hb => ?_, ?_⟩, fun h => ?_, fun h => ?_⟩,
    fun s => State.kindAt_of_memMap_nil, fun s a => State.kindAt_of_no_region,
    fun s a before after r => State.kindAt_of_first_region⟩
  · exact State.load_plain (State.isPlain_of_ram_or_rom h)
  · exact State.store_peek_same v hw h
  · exact State.store_peek_other s v hb
  · rw [State.store_ram v h]
  · exact h.elim (State.store_rom v) (State.store_absent v)
  · exact State.store_device v h

/-! ### The bytes an instruction changes (R55, R57): those it stores to that are RAM -/

/-- The byte at an address is read from memory. -/
theorem State.peek_congr {s t : State} (h : t.mem = s.mem) (a : Addr) : t.peek a = s.peek a := by
  rw [State.peek, State.peek, h]

/-- A store changes no byte but the one at its address, and that only in RAM. -/
theorem State.store_peek_kept (s : State) {a b : Addr} (v : Byte) (h : b = a → s.kindAt b ≠ .ram) :
    (s.store a v).peek b = s.peek b := by
  by_cases hb : b = a
  · exact State.store_peek_notRam v (h hb)
  · exact s.store_peek_other v hb

/-- The same of two stores in a row. -/
theorem State.store_store_peek_kept (s : State) {a a' b : Addr} (v v' : Byte)
    (h : b ∈ [a, a'] → s.kindAt b ≠ .ram) : ((s.store a v).store a' v').peek b = s.peek b := by
  have hsecond : b = a' → (s.store a v).kindAt b ≠ .ram := fun hb => by
    rw [State.store_kindAt]
    exact h (by simp [hb])
  rw [State.store_peek_kept _ v' hsecond]
  exact s.store_peek_kept v fun hb => h (by simp [hb])

theorem State.push16_peek_kept (s : State) (v : Addr) {b : Addr}
    (h : b ∈ [s.sp - 1, s.sp - 2] → s.kindAt b ≠ .ram) : (s.push16 v).peek b = s.peek b :=
  s.store_store_peek_kept _ _ h

theorem State.stepMem_peek_kept (s : State) (f : Byte → Flags → Byte × Flags) {b : Addr}
    (h : b = s.hl → s.kindAt b ≠ .ram) : (s.stepMem f).peek b = s.peek b := by
  have hstore := (s.load s.hl).2.store_peek_kept (f (s.load s.hl).1 s.flags).1 (by simpa using h)
  exact hstore.trans (s.load_peek s.hl b)

/-- A conditional call stores only when it is taken. -/
theorem State.callIf_peek_kept (s : State) (cond : Cond) (target : Addr) {b : Addr}
    (h : b ∈ (if s.flags.holds cond then [s.sp - 1, s.sp - 2] else []) → s.kindAt b ≠ .ram) :
    (s.callIf cond target).peek b = s.peek b := by
  unfold State.callIf
  split
  next htaken => exact s.push16_peek_kept _ (by simpa only [if_pos htaken] using h)
  next => rfl

/-- An instruction changes a byte only where it stores to it and the byte is RAM. -/
theorem exec_peek_kept {i : Instr} {s t : State} {a : Addr} (h : exec i s = .next t)
    (ha : a ∈ storedAt i s → s.kindAt a ≠ .ram) : t.peek a = s.peek a := by
  cases i with
  | movToM _ | mviM _ | sta _ | stax _ =>
    cases h
    exact s.store_peek_kept _ fun e => ha (List.mem_singleton.mpr e)
  | inrM | dcrM =>
    cases h
    exact s.stepMem_peek_kept _ fun e => ha (List.mem_singleton.mpr e)
  | shld _ =>
    cases h
    exact s.store_store_peek_kept _ _ ha
  | xthl =>
    cases h
    have hkept : a ∈ [s.sp + 1, s.sp] → s.kindAt a ≠ .ram := ha
    exact (State.store_store_peek_kept _ _ _ (by simpa using hkept)).trans (by simp)
  | push _ | pushPsw | call _ | rst _ =>
    cases h
    exact State.push16_peek_kept _ _ ha
  | cnz _ | cz _ | cnc _ | cc _ | cpo _ | cpe _ | cp _ | cm _ =>
    cases h
    exact s.callIf_peek_kept _ _ ha
  | undefinedOp _ => cases h
  | _ =>
    cases h
    exact State.peek_congr (by simp) a

/-- Settles O53: a byte the instruction does not store to is kept, whatever its kind. -/
theorem onlyTheStoredBytesChange : Obligations.OnlyTheStoredBytesChange := by
  unfold Obligations.OnlyTheStoredBytesChange
  exact fun i s t a h ha => exec_peek_kept h fun hstored => absurd hstored ha

/-! ### What every part of a step keeps holds along a run -/

/-- A preorder on states that each part of a step respects: a reset, the fetch, the instruction, and at the sampling
point the latching of the input and the taking of an interrupt. -/
structure StepPreorder (R : State → State → Prop) : Prop where
  refl : ∀ s, R s s
  trans : ∀ {s t u}, R s t → R t u → R s u
  reset : ∀ s : State, R s s.applyReset
  fetch : ∀ s : State, R s s.fetch.2
  exec : ∀ {i s t}, exec i s = .next t → R s t
  latched : ∀ s : State, R s s.latched
  takeInterrupt : ∀ (s : State) source target, R s (s.takeInterrupt source target)

theorem StepPreorder.of_sample {R : State → State → Prop} (hR : StepPreorder R) {s t : State}
    (h : s.sample = .next t) : R s t := by
  rcases State.sample_cases h with ⟨_, rfl⟩ | ⟨source, target, _, rfl⟩
  · exact hR.latched s
  · exact hR.trans (hR.latched s) (hR.takeInterrupt _ _ _)

theorem StepPreorder.of_step {R : State → State → Prop} (hR : StepPreorder R) {s t : State}
    (h : step s = .next t) : R s t := by
  rcases step_cases h with ⟨_, rfl⟩ | ⟨_, _, hsample⟩ | ⟨_, _, u, hexec, hsample⟩
  · exact hR.reset s
  · exact hR.of_sample hsample
  · exact hR.trans (hR.fetch s) (hR.trans (hR.exec hexec) (hR.of_sample hsample))

theorem StepPreorder.of_reaches {R : State → State → Prop} (hR : StepPreorder R) {s t : State}
    (h : Reaches s t) : R s t := by
  induction h with
  | here s => exact hR.refl s
  | step first _ ih => exact hR.trans (hR.of_step first) ih

/-! ### Bytes outside RAM along a run (R57) -/

/-- `t` has the memory map of `s`, and its bytes outside RAM. -/
def State.KeepsRom (s t : State) : Prop :=
  t.memMap = s.memMap ∧ ∀ a : Addr, s.kindAt a ≠ .ram → t.peek a = s.peek a

theorem State.KeepsRom.of_mem {s t : State} (hmap : t.memMap = s.memMap) (hmem : t.mem = s.mem) : s.KeepsRom t :=
  ⟨hmap, fun a _ => State.peek_congr hmem a⟩

theorem State.KeepsRom.trans {s t u : State} (hst : s.KeepsRom t) (htu : t.KeepsRom u) : s.KeepsRom u := by
  obtain ⟨hmap, hpeek⟩ := hst
  obtain ⟨hmap', hpeek'⟩ := htu
  refine ⟨hmap'.trans hmap, fun a ha => ?_⟩
  rw [hpeek' a (by rwa [State.kindAt_congr hmap]), hpeek a ha]

theorem State.fetch_keepsRom (s : State) : s.KeepsRom s.fetch.2 := by
  obtain ⟨_, _, _, h⟩ := s.fetch_frame
  rw [h]
  exact .of_mem rfl rfl

theorem exec_keepsRom {i : Instr} {s t : State} (h : exec i s = .next t) : s.KeepsRom t := by
  obtain ⟨_, _, _, _, _, hmap, _⟩ := onlyTheirInstructionsChangeInterruptState i s t h
  exact ⟨hmap, fun a ha => exec_peek_kept h fun _ => ha⟩

/-- Taking an interrupt stores what pushing pc stores. -/
theorem State.takeInterrupt_keepsRom (s : State) (source : IntSource) (target : Addr) :
    s.KeepsRom (s.takeInterrupt source target) := by
  refine ⟨State.push16_memMap _ _, fun a ha => ?_⟩
  rw [State.peek_congr (s.takeInterrupt_mem source target)]
  exact State.push16_peek_notRam _ ha

theorem stepPreorder_keepsRom : StepPreorder State.KeepsRom where
  refl _ := .of_mem rfl rfl
  trans := .trans
  reset _ := .of_mem rfl rfl
  fetch := State.fetch_keepsRom
  exec := exec_keepsRom
  latched _ := .of_mem rfl rfl
  takeInterrupt := State.takeInterrupt_keepsRom

/-- Settles O50, by the parts of a step, each of which keeps the memory map and the bytes outside RAM. -/
theorem romNeverChangesAlongARun : Obligations.RomNeverChangesAlongARun := by
  unfold Obligations.RomNeverChangesAlongARun
  intro s t a h
  obtain ⟨hmap, hpeek⟩ := stepPreorder_keepsRom.of_reaches h
  exact ⟨hmap, hpeek a⟩

/-! ### The trace and the counters along a run (R53, R331) -/

/-- The trace of `t` is that of `s` with events added at its end, and neither counter has fallen. -/
def State.Grows (s t : State) : Prop := s.trace <+: t.trace ∧ s.tstates ≤ t.tstates ∧ s.draws ≤ t.draws

namespace State.Grows

variable {s t u : State}

theorem refl (s : State) : s.Grows s := ⟨List.prefix_refl _, Nat.le_refl _, Nat.le_refl _⟩

theorem trans (hst : s.Grows t) (htu : t.Grows u) : s.Grows u := by
  obtain ⟨htrace, hstates, hdraws⟩ := hst
  obtain ⟨htrace', hstates', hdraws'⟩ := htu
  exact ⟨htrace.trans htrace', hstates.trans hstates', hdraws.trans hdraws'⟩

theorem of_fields (htrace : t.trace = s.trace) (hstates : s.tstates ≤ t.tstates) (hdraws : s.draws ≤ t.draws) :
    s.Grows t :=
  ⟨htrace ▸ List.prefix_rfl, hstates, hdraws⟩

/-! Growth up to a state is growth up to what an operation makes of it. -/

theorem setReg {r : Reg} {v : Byte} (h : s.Grows t) : s.Grows (t.setReg r v) := h
theorem setA {v : Byte} (h : s.Grows t) : s.Grows (t.setA v) := h
theorem setFlags {f : Flags} (h : s.Grows t) : s.Grows (t.setFlags f) := h
theorem setPair {rp : RegPair} {v : Addr} (h : s.Grows t) : s.Grows (t.setPair rp v) :=
  h.trans (of_fields (by simp) (by simp) (by simp))
theorem retire {next : Addr} {n : Nat} (h : s.Grows t) : s.Grows (t.retire next n) :=
  h.trans (of_fields rfl (Nat.le_add_right _ _) (Nat.le_refl _))
theorem advance {len n : Nat} (h : s.Grows t) : s.Grows (t.advance len n) := h.retire
theorem emit {e : Event} (h : s.Grows t) : s.Grows (t.emit e) :=
  h.trans ⟨List.prefix_append _ _, Nat.le_refl _, Nat.le_refl _⟩
theorem drawPsw (h : s.Grows t) : s.Grows t.drawPsw.2 :=
  h.trans (of_fields rfl (Nat.le_refl _) (Nat.le_succ _))
theorem envByte (h : s.Grows t) : s.Grows t.envByte.2 := by
  refine h.trans (of_fields (by simp) (by simp) ?_)
  unfold State.envByte
  split
  · exact Nat.le_refl _
  · exact Nat.le_succ _
theorem readSid (h : s.Grows t) : s.Grows t.readSid.2 := by
  refine h.trans (of_fields (by simp) (by simp) ?_)
  unfold State.readSid
  split
  · exact Nat.le_refl _
  · exact Nat.le_succ _
theorem load {a : Addr} (h : s.Grows t) : s.Grows (t.load a).2 := by
  unfold State.load
  split
  · exact h
  · exact h
  · exact h.envByte
  · exact h.envByte.emit
theorem store {a : Addr} {v : Byte} (h : s.Grows t) : s.Grows (t.store a v) := by
  unfold State.store
  split
  · exact h
  · exact h
  · exact h
  · exact h.emit
theorem push16 {v : Addr} (h : s.Grows t) : s.Grows (t.push16 v) := h.store.store
theorem pop16 (h : s.Grows t) : s.Grows t.pop16.2 := h.load.load
theorem readOperand {src : Operand} (h : s.Grows t) : s.Grows (t.readOperand src).2 := by
  cases src with
  | reg _ => exact h
  | mem => exact h.load
  | imm _ => exact h
theorem callTo {target : Addr} {len n : Nat} (h : s.Grows t) : s.Grows (t.callTo target len n) := h.push16.retire
theorem callIf {cond : Cond} {target : Addr} (h : s.Grows t) : s.Grows (t.callIf cond target) := by
  rcases t.callIf_cases cond target with e | e <;> rw [e]
  · exact h.callTo
  · exact h.advance
theorem jumpIf {cond : Cond} {target : Addr} (h : s.Grows t) : s.Grows (t.jumpIf cond target) := by
  obtain ⟨_, _, e⟩ := t.jumpIf_frame cond target
  rw [e]
  exact h.retire
theorem returnFrom {n : Nat} (h : s.Grows t) : s.Grows (t.returnFrom n) := h.pop16.retire
theorem returnIf {cond : Cond} (h : s.Grows t) : s.Grows (t.returnIf cond) := by
  rcases t.returnIf_cases cond with e | e <;> rw [e]
  · exact h.returnFrom
  · exact h.advance

end State.Grows

/-- Every instruction is a row of operations that let the trace and the counters grow. -/
theorem exec_grows {i : Instr} {s t : State} (h : exec i s = .next t) : s.Grows t := by
  have start : s.Grows s := .refl s
  cases i with
  | add _ | addM | adi _ | adc _ | adcM | aci _ | sub _ | subM | sui _ | sbb _ | sbbM | sbi _ | ana _ | anaM | ani _
  | xra _ | xraM | xri _ | ora _ | oraM | ori _ =>
    cases h
    exact start.readOperand.setA.setFlags.advance
  | cmp _ | cmpM | cpi _ =>
    cases h
    exact start.readOperand.setFlags.advance
  | inr _ | dcr _ =>
    cases h
    exact start.setReg.setFlags.advance
  | inrM | dcrM =>
    cases h
    exact start.load.store.setFlags.advance
  | jnz _ | jz _ | jnc _ | jc _ | jpo _ | jpe _ | jp _ | jm _ =>
    cases h
    exact start.jumpIf
  | call _ | rst _ =>
    cases h
    exact start.callTo
  | cnz _ | cz _ | cnc _ | cc _ | cpo _ | cpe _ | cp _ | cm _ =>
    cases h
    exact start.callIf
  | ret =>
    cases h
    exact start.returnFrom
  | rnz | rz | rnc | rc | rpo | rpe | rp | rm =>
    cases h
    exact start.returnIf
  | rim =>
    cases h
    exact start.readSid.setA.advance (len := 1)
  | inPort _ =>
    cases h
    exact start.envByte.emit.setA.advance
  | outPort _ =>
    cases h
    exact start.emit.advance
  | movFromM _ =>
    cases h
    exact start.load.setReg.advance
  | lda _ | ldax _ =>
    cases h
    exact start.load.setA.advance
  | movToM _ | mviM _ | sta _ | stax _ =>
    cases h
    exact start.store.advance
  | lhld _ =>
    cases h
    exact start.load.load.setPair.advance
  | shld _ =>
    cases h
    exact start.store.store.advance
  | push _ =>
    cases h
    exact start.push16.advance
  | pushPsw =>
    cases h
    exact start.drawPsw.push16.advance
  | pop _ =>
    cases h
    exact start.pop16.setPair.advance
  | popPsw =>
    cases h
    exact start.pop16.setA.setFlags.advance
  | xthl =>
    cases h
    exact start.load.load.store.store.setPair.advance
  | undefinedOp _ => cases h
  | _ =>
    cases h
    exact .of_fields (by simp) (by simp) (by simp)

/-- A fetch is one, two or three reads. -/
theorem State.fetch_grows (s : State) : s.Grows s.fetch.2 := by
  have start : s.Grows s := .refl s
  rcases opLength_cases (s.load s.pc).1 with h | h | h
  · rw [State.fetch_of_opLength_one h]
    exact start.load
  · rw [State.fetch_of_opLength_two h]
    exact start.load.load
  · rw [State.fetch_of_opLength_three h]
    exact start.load.load.load

/-- An acknowledge adds one event; the push after it may add those of its stores. -/
theorem State.takeInterrupt_grows (s : State) (source : IntSource) (target : Addr) :
    s.Grows (s.takeInterrupt source target) := by
  have hack : s.Grows (s.acknowledge source) := (State.Grows.refl s).emit (e := .acknowledge source)
  exact hack.push16 (v := s.pc)

theorem stepPreorder_grows : StepPreorder State.Grows where
  refl := .refl
  trans := .trans
  reset _ := .of_fields rfl (Nat.le_refl _) (Nat.le_succ _)
  fetch := State.fetch_grows
  exec := exec_grows
  latched := .refl
  takeInterrupt := State.takeInterrupt_grows

/-- Settles O51, by the parts of a step, each of which lets the trace and the counters grow. -/
theorem traceOnlyGrowsAlongARun : Obligations.TraceOnlyGrowsAlongARun := by
  unfold Obligations.TraceOnlyGrowsAlongARun
  exact fun s t => stepPreorder_grows.of_reaches

end Sys2Proof.Machine
end

section
/-! PROOFS. The environment: a byte it supplies, IN and OUT (43_machine_control_io.md R217, R218), and that with every
address RAM (20_memory.md R57) no other instruction meets it but RIM and PUSH PSW, which draw a free value. -/

namespace Sys2Proof.Machine

open Sys2Proof.Claims

/-! ### A byte the environment supplies (R53) -/

theorem State.envByte_cons {s : State} {v : Byte} {rest : List Byte} (h : s.answers = v :: rest) :
    s.envByte = (v, { s with answers := rest }) := by
  simp [State.envByte, h]

theorem State.envByte_nil {s : State} (h : s.answers = []) :
    s.envByte = (Config.envByte s.draws, { s with draws := s.draws + 1 }) := by
  simp [State.envByte, h]

theorem exec_inPort (port : Byte) (s : State) : exec (.inPort port) s =
    .next (((s.envByte.2.emit (.ioRead port s.envByte.1)).setA s.envByte.1).advance 2 10) := rfl

theorem exec_outPort (port : Byte) (s : State) : exec (.outPort port) s =
    .next ((s.emit (.ioWrite port s.regs.a)).advance 2 10) := rfl

/-- Settles O27, by the byte the environment supplies: the first answer listed, or a free value. -/
theorem inAndOutExchangeBytesWithPorts : Obligations.InAndOutExchangeBytesWithPorts := by
  unfold Obligations.InAndOutExchangeBytesWithPorts
  intro s port
  refine ⟨fun v rest h => ⟨rfl, ?_⟩, fun h => ⟨Config.envByte s.draws, rfl, ?_⟩, rfl, exec_outPort port s⟩
  · rw [exec_inPort, State.envByte_cons h]
    rfl
  · rw [exec_inPort, State.envByte_nil h]
    rfl

/-! ### The exchange with the environment, as one value -/

/-- The fields in which the machine exchanges data with its environment: the events, the answers still to come, and
how many free values have been drawn. -/
structure Exchange where
  trace : List Event
  answers : List Byte
  draws : Nat

def State.exchange (s : State) : Exchange where
  trace := s.trace
  answers := s.answers
  draws := s.draws

@[simp] theorem State.setReg_exchange (s : State) (r : Reg) (v : Byte) : (s.setReg r v).exchange = s.exchange := rfl
@[simp] theorem State.setA_exchange (s : State) (v : Byte) : (s.setA v).exchange = s.exchange := rfl
@[simp] theorem State.setFlags_exchange (s : State) (f : Flags) : (s.setFlags f).exchange = s.exchange := rfl
@[simp] theorem State.setCY_exchange (s : State) (cy : Bool) : (s.setCY cy).exchange = s.exchange := rfl
@[simp] theorem State.retire_exchange (s : State) (next : Addr) (t : Nat) :
    (s.retire next t).exchange = s.exchange := rfl
@[simp] theorem State.advance_exchange (s : State) (len t : Nat) : (s.advance len t).exchange = s.exchange := rfl
@[simp] theorem State.setPair_exchange (s : State) (rp : RegPair) (v : Addr) :
    (s.setPair rp v).exchange = s.exchange := by
  cases rp <;> rfl

/-! ### Where every address is RAM, no access meets the environment -/

section AllRam

variable {s : State} (hram : ∀ a, s.kindAt a = .ram)

include hram

@[simp] theorem State.load_allRam (a : Addr) : (s.load a).2 = s := by
  rw [State.load_plain (State.isPlain_of_ram_or_rom (.inl (hram a)))]

@[simp] theorem State.store_exchange (a : Addr) (v : Byte) : (s.store a v).exchange = s.exchange := by
  rw [State.store_ram v (hram a)]
  rfl

@[simp] theorem State.push16_exchange (v : Addr) : (s.push16 v).exchange = s.exchange := by
  have hstores : ((s.store (s.sp - 1) (hiByte v)).store (s.sp - 2) (loByte v)).exchange = s.exchange := by simp [hram]
  exact hstores

@[simp] theorem State.pop16_exchange : s.pop16.2.exchange = s.exchange := by
  have hloads : ((s.load s.sp).2.load (s.sp + 1)).2.exchange = s.exchange := by simp [hram]
  exact hloads

@[simp] theorem State.readOperand_allRam (src : Operand) : (s.readOperand src).2 = s := by
  cases src with
  | reg _ => rfl
  | mem => exact State.load_allRam hram _
  | imm _ => rfl

@[simp] theorem State.accumulate_exchange (f : Byte → Byte → Bool → Byte × Flags) (src : Operand) :
    (s.accumulate f src).exchange = s.exchange := by
  simp [State.accumulate, hram]

@[simp] theorem State.compare_exchange (src : Operand) : (s.compare src).exchange = s.exchange := by
  simp [State.compare, hram]

@[simp] theorem State.stepMem_exchange (f : Byte → Flags → Byte × Flags) :
    (s.stepMem f).exchange = s.exchange := by
  simp [State.stepMem, hram]

@[simp] theorem State.callTo_exchange (target : Addr) (len t : Nat) :
    (s.callTo target len t).exchange = s.exchange := by
  simp [State.callTo, hram]

@[simp] theorem State.callIf_exchange (cond : Cond) (target : Addr) :
    (s.callIf cond target).exchange = s.exchange := by
  rcases s.callIf_cases cond target with h | h <;> simp [h, hram]

@[simp] theorem State.returnFrom_exchange (t : Nat) : (s.returnFrom t).exchange = s.exchange := by
  simp [State.returnFrom, hram]

@[simp] theorem State.returnIf_exchange (cond : Cond) : (s.returnIf cond).exchange = s.exchange := by
  rcases s.returnIf_cases cond with h | h <;> simp [h, hram]

end AllRam

@[simp] theorem State.stepReg_exchange (s : State) (f : Byte → Flags → Byte × Flags) (r : Reg) :
    (s.stepReg f r).exchange = s.exchange := rfl

@[simp] theorem State.jumpIf_exchange (s : State) (cond : Cond) (target : Addr) :
    (s.jumpIf cond target).exchange = s.exchange := by
  obtain ⟨_, _, h⟩ := s.jumpIf_frame cond target
  rw [h, State.retire_exchange]

/-! ### The exchange under an instruction, with every address RAM -/

/-- The instructions that exchange data with the environment or draw a free value other than by a memory access. -/
def meetsEnvironment : Instr → Bool
  | .inPort _ | .outPort _ | .rim | .pushPsw => true
  | _ => false

/-- Every other instruction exchanges data by its memory accesses only, and an access to RAM exchanges none. -/
theorem exec_exchange {i : Instr} {s t : State} (h : exec i s = .next t) (hram : ∀ a, s.kindAt a = .ram)
    (hi : meetsEnvironment i = false) : t.exchange = s.exchange := by
  cases i with
  | inPort _ | outPort _ | rim | pushPsw => cases hi
  | undefinedOp _ => cases h
  | hlt | di | ei | sim =>
    cases h
    rfl
  | _ =>
    cases h
    simp [hram]

/-- PUSH PSW pushes from the state that its draw leaves. -/
theorem exec_pushPsw_exchange {s t : State} (h : exec .pushPsw s = .next t) (hram : ∀ a, s.kindAt a = .ram) :
    t.exchange = s.drawPsw.2.exchange := by
  cases h
  exact State.push16_exchange (s := s.drawPsw.2) hram _

/-- Settles O56: IN, OUT, RIM and PUSH PSW each leave what the statement says they leave, and no other instruction
exchanges anything. -/
theorem inAllRamOnlyInputOutputMeetsTheEnvironment : Obligations.InAllRamOnlyInputOutputMeetsTheEnvironment := by
  unfold Obligations.InAllRamOnlyInputOutputMeetsTheEnvironment
  intro i s t hmap h
  have hram := State.kindAt_of_memMap_nil hmap
  cases hi : meetsEnvironment i with
  | true =>
    cases i with
    | inPort port => exact ⟨fun hin => absurd rfl (hin port), fun hin => absurd rfl (hin port),
        fun hin => absurd rfl (hin port)⟩
    | outPort port =>
      cases h
      exact ⟨fun _ hout => absurd rfl (hout port), fun _ => rfl, fun _ _ _ => rfl⟩
    | rim =>
      rw [exec_rim] at h
      cases h
      exact ⟨fun _ _ => rfl, fun _ => rfl, fun _ hrim => absurd rfl hrim⟩
    | pushPsw =>
      have hx := exec_pushPsw_exchange h hram
      exact ⟨fun _ _ => congrArg Exchange.trace hx, fun _ => congrArg Exchange.answers hx,
        fun _ _ hpush => absurd rfl hpush⟩
    | _ => cases hi
  | false =>
    have hx := exec_exchange h hram hi
    exact ⟨fun _ _ => congrArg Exchange.trace hx, fun _ => congrArg Exchange.answers hx,
      fun _ _ _ => congrArg Exchange.draws hx⟩

end Sys2Proof.Machine
end

section
/-! PROOFS. The encoding (30_encoding.md): the fields of an op code byte (R72, R73), that every op code byte decodes to
a well-formed instruction whose encoding begins with it, the two round trips (R87), and the undefined op codes (R80,
R281). -/

namespace Sys2Proof

/-! ### The fields of an op code byte (R72, R73) -/

@[simp] theorem opQuadrant_opByte (q : BitVec 2) (mid low : BitVec 3) : opQuadrant (opByte q mid low) = q := by
  revert q mid low
  decide

@[simp] theorem opMiddle_opByte (q : BitVec 2) (mid low : BitVec 3) : opMiddle (opByte q mid low) = mid := by
  revert q mid low
  decide

@[simp] theorem opLow_opByte (q : BitVec 2) (mid low : BitVec 3) : opLow (opByte q mid low) = low :=
  BitVec.extractLsb'_append_eq_right

@[simp] theorem opPair_opByte (q : BitVec 2) (mid low : BitVec 3) :
    opPair (opByte q mid low) = mid.extractLsb' 1 2 := by
  revert q mid low
  decide

@[simp] theorem opBit3_opByte (q : BitVec 2) (mid low : BitVec 3) : opBit3 (opByte q mid low) = mid.getLsbD 0 := by
  revert q mid low
  decide

/-- A byte is put together from its three fields. -/
theorem opByte_fields (op : Byte) : opByte (opQuadrant op) (opMiddle op) (opLow op) = op := by
  revert op
  decide

/-- A pair field and bit 3 fill the place of the middle field. -/
theorem opBytePair_eq_opByte (q pair : BitVec 2) (bit3 : BitVec 1) (low : BitVec 3) :
    opBytePair q pair bit3 low = opByte q (pair ++ bit3) low := by
  revert q pair bit3 low
  decide

/-- The values of a 3-bit field. -/
theorem threeBits_cases {motive : BitVec 3 → Prop} (m0 : motive 0b000) (m1 : motive 0b001) (m2 : motive 0b010)
    (m3 : motive 0b011) (m4 : motive 0b100) (m5 : motive 0b101) (m6 : motive 0b110) (m7 : motive 0b111)
    (field : BitVec 3) : motive field := by
  have h : ∀ x : BitVec 3, x = 0 ∨ x = 1 ∨ x = 2 ∨ x = 3 ∨ x = 4 ∨ x = 5 ∨ x = 6 ∨ x = 7 := by decide
  rcases h field with h | h | h | h | h | h | h | h <;> rw [h] <;> assumption

/-- The four quadrants of the op code map (R75 to R77). -/
theorem quadrant_cases {motive : BitVec 2 → Prop} (q0 : motive 0b00) (q1 : motive 0b01) (q2 : motive 0b10)
    (q3 : motive 0b11) (field : BitVec 2) : motive field := by
  have h : ∀ x : BitVec 2, x = 0 ∨ x = 1 ∨ x = 2 ∨ x = 3 := by decide
  rcases h field with h | h | h | h <;> rw [h] <;> assumption

/-! ### Codes and what they name (R21, R23) -/

@[simp] theorem regOfCode_code (r : Reg) : regOfCode r.code = some r := by cases r <;> rfl

@[simp] theorem regOfCode_codeM : regOfCode codeM = none := rfl

/-- A 3-bit operand field is the code of a register or that of the memory operand (R72). -/
theorem operand_cases (code : BitVec 3) : (∃ r : Reg, code = r.code) ∨ code = codeM := by
  cases code using threeBits_cases with
  | m0 => exact .inl ⟨.b, rfl⟩
  | m1 => exact .inl ⟨.c, rfl⟩
  | m2 => exact .inl ⟨.d, rfl⟩
  | m3 => exact .inl ⟨.e, rfl⟩
  | m4 => exact .inl ⟨.h, rfl⟩
  | m5 => exact .inl ⟨.l, rfl⟩
  | m6 => exact .inr rfl
  | m7 => exact .inl ⟨.a, rfl⟩

/-! ### The undefined op codes (R80) -/

theorem wellFormed_undefinedOp_iff (op : Byte) :
    (Instr.undefinedOp op).WellFormed = true ↔ op ∈ undefinedOpcodes := by
  simp [Instr.WellFormed]

theorem decodeBytes_of_mem_undefinedOpcodes {op : Byte} (h : op ∈ undefinedOpcodes) (byte2 byte3 : Byte) :
    decodeBytes op byte2 byte3 = .undefinedOp op := by
  simp only [undefinedOpcodes, List.mem_cons, List.not_mem_nil, or_false] at h
  rcases h with rfl | rfl | rfl | rfl | rfl | rfl | rfl | rfl | rfl | rfl <;> rfl

theorem opLength_of_mem_undefinedOpcodes {op : Byte} (h : op ∈ undefinedOpcodes) : opLength op = 1 := by
  rw [opLength, decodeBytes_of_mem_undefinedOpcodes h]
  rfl

/-! ### What bytes decode to is encoded by those bytes -/

/-- The instruction is well formed, and the first bytes of the list, as many as it is long, are its encoding. -/
def Instr.ReadsFrom (i : Instr) (bytes : List Byte) : Prop :=
  i.WellFormed = true ∧ encode i = bytes.take i.length

theorem Instr.undefinedOp_readsFrom {op : Byte} (h : op ∈ undefinedOpcodes) (bytes : List Byte) :
    (Instr.undefinedOp op).ReadsFrom (op :: bytes) :=
  ⟨(wellFormed_undefinedOp_iff op).mpr h, rfl⟩

/-- Quadrant 00 (R75): the low field names the row, the middle field a register or M in rows 4 to 6. -/
theorem decodeQuadrant0_readsFrom (mid low : BitVec 3) (byte2 byte3 : Byte) :
    (decodeQuadrant0 (opByte 0b00 mid low) byte2 (word16 byte3 byte2)).ReadsFrom
      [opByte 0b00 mid low, byte2, byte3] := by
  cases low using threeBits_cases with
  | m0 =>
    cases mid using threeBits_cases with
    | m0 | m4 | m6 => exact ⟨rfl, rfl⟩
    | _ => exact Instr.undefinedOp_readsFrom (by decide) _
  | m4 | m5 | m6 =>
    obtain ⟨r, rfl⟩ | rfl := operand_cases mid <;>
    simp [Instr.ReadsFrom, decodeQuadrant0, Instr.WellFormed, Instr.length, encode, form2]
  | m1 | m2 =>
    cases mid using threeBits_cases <;>
    simp [Instr.ReadsFrom, decodeQuadrant0, Instr.WellFormed, Instr.length, encode, form3, pairOfCode,
      opBytePair_eq_opByte, RegPair.code, IndexPair.code]
  | m3 | m7 => cases mid using threeBits_cases <;> exact ⟨rfl, rfl⟩

/-- Quadrant 01 (R76): two operands, each a register or M. -/
theorem decodeQuadrant1_readsFrom (mid low : BitVec 3) (bytes : List Byte) :
    (decodeQuadrant1 (opByte 0b01 mid low)).ReadsFrom (opByte 0b01 mid low :: bytes) := by
  obtain ⟨dst, rfl⟩ | rfl := operand_cases mid <;> obtain ⟨src, rfl⟩ | rfl := operand_cases low <;>
    simp [Instr.ReadsFrom, decodeQuadrant1, Instr.WellFormed, Instr.length, encode]

/-- Quadrant 10 (R76): an operation on a register or M. -/
theorem decodeQuadrant2_readsFrom (mid low : BitVec 3) (bytes : List Byte) :
    (decodeQuadrant2 (opByte 0b10 mid low)).ReadsFrom (opByte 0b10 mid low :: bytes) := by
  obtain ⟨r, rfl⟩ | rfl := operand_cases low <;> cases mid using threeBits_cases <;>
    simp [Instr.ReadsFrom, decodeQuadrant2, Instr.WellFormed, Instr.length, encode]

/-- Quadrant 11 (R77): the low field names the row, the middle field the instruction in it. -/
theorem decodeQuadrant3_readsFrom (mid low : BitVec 3) (byte2 byte3 : Byte) :
    (decodeQuadrant3 (opByte 0b11 mid low) byte2 (word16 byte3 byte2)).ReadsFrom
      [opByte 0b11 mid low, byte2, byte3] := by
  cases low using threeBits_cases with
  | m0 => cases mid using threeBits_cases <;> exact ⟨rfl, rfl⟩
  | m1 =>
    cases mid using threeBits_cases with
    | m3 => exact Instr.undefinedOp_readsFrom (by decide) _
    | _ => exact ⟨rfl, rfl⟩
  | m3 =>
    cases mid using threeBits_cases with
    | m1 => exact Instr.undefinedOp_readsFrom (by decide) _
    | _ => simp [Instr.ReadsFrom, decodeQuadrant3, Instr.WellFormed, Instr.length, encode, form2, form3]
  | m5 =>
    cases mid using threeBits_cases with
    | m3 | m5 | m7 => exact Instr.undefinedOp_readsFrom (by decide) _
    | m1 => simp [Instr.ReadsFrom, decodeQuadrant3, Instr.WellFormed, Instr.length, encode, form3]
    | _ => exact ⟨rfl, rfl⟩
  | m2 | m4 | m6 =>
    cases mid using threeBits_cases <;>
    simp [Instr.ReadsFrom, decodeQuadrant3, Instr.WellFormed, Instr.length, encode, form2, form3]
  | m7 => simp [Instr.ReadsFrom, decodeQuadrant3, Instr.WellFormed, Instr.length, encode]

theorem decodeBytes_readsFrom (op byte2 byte3 : Byte) :
    (decodeBytes op byte2 byte3).ReadsFrom [op, byte2, byte3] := by
  rw [← opByte_fields op]
  generalize opQuadrant op = q, opMiddle op = mid, opLow op = low
  cases q using quadrant_cases with
  | q0 => simpa [decodeBytes] using decodeQuadrant0_readsFrom mid low byte2 byte3
  | q1 => simpa [decodeBytes] using decodeQuadrant1_readsFrom mid low [byte2, byte3]
  | q2 => simpa [decodeBytes] using decodeQuadrant2_readsFrom mid low [byte2, byte3]
  | q3 => simpa [decodeBytes] using decodeQuadrant3_readsFrom mid low byte2 byte3

/-- What a list of bytes decodes to is read from its first bytes, and what is left over follows them. -/
theorem decode_ok {bytes rest : List Byte} {i : Instr} (h : decode bytes = .ok (i, rest)) :
    ∃ op byte2 byte3, i = decodeBytes op byte2 byte3 ∧ bytes = [op, byte2, byte3].take (opLength op) ++ rest := by
  cases bytes with
  | nil => cases h
  | cons op bytes =>
    simp only [decode] at h
    split at h <;> cases h
    next byte2 byte3 hlen => exact ⟨op, byte2, byte3, rfl, by rw [hlen]; rfl⟩
    next byte2 hlen => exact ⟨op, byte2, 0, rfl, by rw [hlen]; rfl⟩
    next hlen => exact ⟨op, 0, 0, rfl, by rw [hlen]; rfl⟩

/-- Settles O2, by what the bytes at the front of the list are read as. -/
theorem encodeOfDecodeIsTheBytes : Obligations.EncodeOfDecodeIsTheBytes := by
  unfold Obligations.EncodeOfDecodeIsTheBytes
  intro bytes rest i h
  obtain ⟨op, byte2, byte3, rfl, rfl⟩ := decode_ok h
  obtain ⟨hwf, henc⟩ := decodeBytes_readsFrom op byte2 byte3
  rw [decodeBytes_length] at henc
  exact ⟨by rw [henc], hwf⟩

/-! ### The bytes of an instruction decode to it -/

/-- The instruction that a list of bytes begins with, 00H in the place of each byte that it does not have. -/
def decodePadded (bytes : List Byte) : Instr :=
  decodeBytes (bytes.getD 0 0) (bytes.getD 1 0) (bytes.getD 2 0)

/-- As many bytes as their op code asks for decode to the instruction they begin with, whatever follows them. -/
theorem decode_append {bytes : List Byte} (hlen : bytes.length = opLength (bytes.getD 0 0)) (rest : List Byte) :
    decode (bytes ++ rest) = .ok (decodePadded bytes, rest) := by
  match bytes with
  | [op] => exact decode_of_opLength_one hlen.symm rest
  | [op, byte2] => exact decode_of_opLength_two hlen.symm byte2 rest
  | [op, byte2, byte3] => exact decode_of_opLength_three hlen.symm byte2 byte3 rest
  | [] => exact absurd hlen (by decide)
  | op :: _ :: _ :: _ :: _ =>
    have := opLength_cases op
    simp only [List.length_cons, List.getD_cons_zero] at hlen
    omega

/-- The fields that the encoder writes are those that the decoder reads. -/
theorem decodePadded_encode {i : Instr} (h : i.WellFormed = true) : decodePadded (encode i) = i := by
  cases i with
  | undefinedOp op => exact decodeBytes_of_mem_undefinedOpcodes ((wellFormed_undefinedOp_iff op).mp h) 0 0
  | inx rp | dcx rp | dad rp => cases rp <;> rfl
  | push p | pop p => cases p <;> rfl
  | ldax ip | stax ip => cases ip <;> rfl
  | pushPsw | popPsw => rfl
  | lxi rp data =>
    cases rp <;>
    simp [decodePadded, encode, form3, opBytePair_eq_opByte, RegPair.code, decodeBytes, decodeQuadrant0, pairOfCode]
  | _ =>
    simp [decodePadded, encode, form2, form3, decodeBytes, decodeQuadrant0, decodeQuadrant1, decodeQuadrant2,
      decodeQuadrant3]

theorem Instr.length_le_three (i : Instr) : i.length ≤ 3 := by
  have := i.length_cases
  omega

/-- An encoding has as many bytes as its op code asks for (R70). -/
theorem length_encode {i : Instr} (h : i.WellFormed = true) : (encode i).length = opLength ((encode i).getD 0 0) := by
  obtain ⟨_, henc⟩ : (decodePadded (encode i)).ReadsFrom _ := decodeBytes_readsFrom _ _ _
  have hlen : (decodePadded (encode i)).length = opLength ((encode i).getD 0 0) := decodeBytes_length _ _ _
  rw [decodePadded_encode h] at henc hlen
  calc (encode i).length = _ := congrArg List.length henc
    _ = i.length := List.length_take_of_le i.length_le_three
    _ = _ := hlen

/-- Settles O1: the encoding is as long as its op code asks for, so it is decoded whole, and to the instruction. -/
theorem decodeOfEncodeIsTheInstruction : Obligations.DecodeOfEncodeIsTheInstruction := by
  unfold Obligations.DecodeOfEncodeIsTheInstruction
  intro i rest hwf
  rw [decode_append (length_encode hwf), decodePadded_encode hwf]

/-! ### The op code alone (R70, R80) -/

/-- No op code that the table defines decodes to an undefined instruction: what it decodes to is well formed. -/
theorem mem_undefinedOpcodes_of_decodeBytes {op byte2 byte3 v : Byte}
    (h : decodeBytes op byte2 byte3 = .undefinedOp v) : op ∈ undefinedOpcodes := by
  obtain ⟨hwf, henc⟩ := decodeBytes_readsFrom op byte2 byte3
  rw [h] at hwf henc
  obtain rfl : v = op := List.head_eq_of_cons_eq henc
  exact (wellFormed_undefinedOp_iff v).mp hwf

/-- Settles O3: the operand bytes do not enter the length, the undefined op codes are those of R80, and the counts are
taken over the 256 bytes. -/
theorem opcodeAloneFixesLengthAndDefinedness : Obligations.OpcodeAloneFixesLengthAndDefinedness := by
  unfold Obligations.OpcodeAloneFixesLengthAndDefinedness
  exact ⟨decodeBytes_length, fun _ byte2 byte3 hop => decodeBytes_of_mem_undefinedOpcodes hop byte2 byte3,
    fun _ _ _ _ hop h => hop (mem_undefinedOpcodes_of_decodeBytes h), rfl, rfl, rfl⟩

/-- Settles O4: each word, and each value of a field, is decoded. -/
theorem wordsOfTheSpecDecode : Obligations.WordsOfTheSpecDecode := by
  unfold Obligations.WordsOfTheSpecDecode
  and_intros <;> rfl

/-! ### The fault of an undefined op code (R281) -/

namespace Machine

/-- Only the op code byte of an undefined op code is read, and from RAM or ROM this changes nothing. -/
theorem State.fetch_of_mem_undefinedOpcodes {s : State} (hplain : s.isPlain s.pc = true)
    (hop : s.peek s.pc ∈ undefinedOpcodes) : s.fetch = (.undefinedOp (s.peek s.pc), s) := by
  have hload := State.load_plain hplain
  have hlen : opLength (s.load s.pc).1 = 1 := by
    rw [hload]
    exact opLength_of_mem_undefinedOpcodes hop
  rw [State.fetch_of_opLength_one hlen, hload, decodeBytes_of_mem_undefinedOpcodes hop]

theorem exec_undefinedOp (op : Byte) (s : State) :
    exec (.undefinedOp op) s = .fault (.undefinedOpcode op s.pc) := rfl

/-- Settles O28, by the meaning of the undefined instruction, and its fetch in a running machine. -/
theorem undefinedOpcodeFaults : Obligations.UndefinedOpcodeFaults := by
  unfold Obligations.UndefinedOpcodeFaults
  refine ⟨exec_undefinedOp, fun s hh hr hplain hop => ?_⟩
  rw [step_running hh hr, State.fetch_of_mem_undefinedOpcodes hplain hop, exec_undefinedOp]
  rfl

end Machine

end Sys2Proof
end

section
/-! PROOFS. The arithmetic instructions (40_arithmetic.md R101 to R122): what makes bytes an instruction that runs, the
shapes of meaning as the states the statements write out, the 16-bit registers (10_state.md R23), and DAD's 17-bit
sum. -/

namespace Sys2Proof.Machine

open Sys2Proof.Claims

/-! ### The bytes of an instruction that runs -/

/-- The bytes the encoder gives a well-formed instruction are that instruction. -/
theorem runs_of_encode {i : Instr} {bytes : List Byte} {s t : State} (hwf : i.WellFormed = true)
    (hbytes : encode i = bytes) (hexec : exec i s = .next t) : Runs i bytes s t := by
  have hdec : decode (encode i ++ []) = .ok (i, []) := decodeOfEncodeIsTheInstruction i [] hwf
  rw [List.append_nil, hbytes] at hdec
  exact ⟨hdec, hexec⟩

/-- A register code in bits 2 to 0 is added to the op code (R72). -/
theorem opByte_eq_add_low (q : BitVec 2) (mid low : BitVec 3) :
    opByte q mid low = opByte q mid 0 + low.setWidth 8 := by
  revert q mid low
  decide

/-- A register code in bits 5 to 3 is added eight times to the op code (R72). -/
theorem opByte_eq_add_middle (q : BitVec 2) (mid low : BitVec 3) :
    opByte q mid low = opByte q 0 low + 8 * mid.setWidth 8 := by
  revert q mid low
  decide

/-- A pair code in bits 5 and 4 is added sixteen times to the op code (R73). -/
theorem opBytePair_eq_add_pair (q pair : BitVec 2) (bit3 : BitVec 1) (low : BitVec 3) :
    opBytePair q pair bit3 low = opBytePair q 0 bit3 low + 16 * pair.setWidth 8 := by
  revert q pair bit3 low
  decide

/-- A one-byte instruction with a register in bits 2 to 0. -/
theorem runs_of_encode_low {i : Instr} {op : Byte} {q : BitVec 2} {mid : BitVec 3} {s t : State} (low : BitVec 3)
    (hwf : i.WellFormed = true) (hbytes : encode i = [opByte q mid low]) (hop : opByte q mid 0 = op)
    (hexec : exec i s = .next t) : Runs i [op + low.setWidth 8] s t :=
  runs_of_encode hwf (by rw [hbytes, opByte_eq_add_low, hop]) hexec

/-- A one-byte instruction with a register in bits 5 to 3. -/
theorem runs_of_encode_middle {i : Instr} {op : Byte} {q : BitVec 2} {low : BitVec 3} {s t : State} (mid : BitVec 3)
    (hwf : i.WellFormed = true) (hbytes : encode i = [opByte q mid low]) (hop : opByte q 0 low = op)
    (hexec : exec i s = .next t) : Runs i [op + 8 * mid.setWidth 8] s t :=
  runs_of_encode hwf (by rw [hbytes, opByte_eq_add_middle, hop]) hexec

/-- A one-byte instruction with a pair in bits 5 and 4. -/
theorem runs_of_encode_pair {i : Instr} {op : Byte} {q : BitVec 2} {bit3 : BitVec 1} {low : BitVec 3}
    {s t : State} (pair : BitVec 2) (hwf : i.WellFormed = true) (hbytes : encode i = [opBytePair q pair bit3 low])
    (hop : opBytePair q 0 bit3 low = op) (hexec : exec i s = .next t) :
    Runs i [op + 16 * pair.setWidth 8] s t :=
  runs_of_encode hwf (by rw [hbytes, opBytePair_eq_add_pair, hop]) hexec

/-! ### The shapes of meaning, as the states they answer -/

/-- An accumulator operation reads its operand, then writes A and the flags, pc and the T states. -/
theorem State.accumulate_eq (s : State) (f : Byte → Byte → Bool → Byte × Flags) (src : Operand) :
    s.accumulate f src =
      accResult s (s.readOperand src).2 (f s.regs.a (s.readOperand src).1 s.flags.cy)
        (BitVec.ofNat 16 src.len) src.tstates := by
  obtain ⟨_, _, _, h⟩ := s.readOperand_frame src
  rw [State.accumulate, h]
  rfl

/-- Counting a register up or down writes it and the flags, pc and the T states. -/
theorem State.stepReg_eq (s : State) (f : Byte → Flags → Byte × Flags) (r : Reg) :
    s.stepReg f r =
      flagResult s { s with regs := s.regs.set r (f (s.reg r) s.flags).1 } (f (s.reg r) s.flags).2 1 4 := rfl

/-- Counting the byte at HL up or down reads it, stores it, and writes the flags, pc and the T states. -/
theorem State.stepMem_eq (s : State) (f : Byte → Flags → Byte × Flags) :
    s.stepMem f =
      flagResult s ((s.load s.hl).2.store s.hl (f (s.load s.hl).1 s.flags).1) (f (s.load s.hl).1 s.flags).2 1 10 := by
  obtain ⟨_, _, _, hload⟩ := s.load_frame s.hl
  obtain ⟨_, _, hstore⟩ := (s.load s.hl).2.store_frame s.hl (f (s.load s.hl).1 s.flags).1
  rw [State.stepMem, hstore, hload]
  rfl

/-! ### Accumulator instructions, by the operand -/

/-- An instruction that is an accumulator operation, with any operand. -/
theorem runs_accumulate {i : Instr} {bytes : List Byte} {s : State} (f : Byte → Byte → Bool → Byte × Flags)
    (src : Operand) (hwf : i.WellFormed = true) (hbytes : encode i = bytes)
    (hexec : exec i s = .next (s.accumulate f src)) :
    Runs i bytes s
      (accResult s (s.readOperand src).2 (f s.regs.a (s.readOperand src).1 s.flags.cy)
        (BitVec.ofNat 16 src.len) src.tstates) :=
  runs_of_encode hwf hbytes (by rw [hexec, State.accumulate_eq])

/-- The same with a register operand, whose code stands in bits 2 to 0. -/
theorem runs_accumulate_reg {i : Instr} {op : Byte} {q : BitVec 2} {mid : BitVec 3} {s : State}
    (f : Byte → Byte → Bool → Byte × Flags) (r : Reg) (hwf : i.WellFormed = true)
    (hbytes : encode i = [opByte q mid r.code]) (hop : opByte q mid 0 = op)
    (hexec : exec i s = .next (s.accumulate f (.reg r))) :
    Runs i [op + r.code.setWidth 8] s (accResult s s (f s.regs.a (s.reg r) s.flags.cy) 1 4) :=
  runs_of_encode_low r.code hwf hbytes hop (by rw [hexec, State.accumulate_eq]; rfl)

/-- Settles O10: each form is the accumulator operation `add8`, with no carry or with CY. -/
theorem additionsPutTheSumAndItsFlags : Obligations.AdditionsPutTheSumAndItsFlags := by
  unfold Obligations.AdditionsPutTheSumAndItsFlags
  refine fun s => ⟨fun r => ?add, ?addM, fun data => ?adi, fun r => ?adc, ?adcM, fun data => ?aci⟩
  case add => exact runs_accumulate_reg (fun a v _ => add8 a v false) r rfl rfl rfl rfl
  case addM => exact runs_accumulate (fun a v _ => add8 a v false) .mem rfl rfl rfl
  case adi => exact runs_accumulate (fun a v _ => add8 a v false) (.imm data) rfl rfl rfl
  case adc => exact runs_accumulate_reg add8 r rfl rfl rfl rfl
  case adcM => exact runs_accumulate add8 .mem rfl rfl rfl
  case aci => exact runs_accumulate add8 (.imm data) rfl rfl rfl

/-- Settles O11: each form is the accumulator operation `sub8`, with no borrow or with CY. -/
theorem subtractionsPutTheDifferenceAndItsFlags : Obligations.SubtractionsPutTheDifferenceAndItsFlags := by
  unfold Obligations.SubtractionsPutTheDifferenceAndItsFlags
  refine fun s => ⟨fun r => ?sub, ?subM, fun data => ?sui, fun r => ?sbb, ?sbbM, fun data => ?sbi⟩
  case sub => exact runs_accumulate_reg (fun a v _ => sub8 a v false) r rfl rfl rfl rfl
  case subM => exact runs_accumulate (fun a v _ => sub8 a v false) .mem rfl rfl rfl
  case sui => exact runs_accumulate (fun a v _ => sub8 a v false) (.imm data) rfl rfl rfl
  case sbb => exact runs_accumulate_reg sub8 r rfl rfl rfl rfl
  case sbbM => exact runs_accumulate sub8 .mem rfl rfl rfl
  case sbi => exact runs_accumulate sub8 (.imm data) rfl rfl rfl

/-! ### INR and DCR (R116 to R119) -/

theorem exec_inr (r : Reg) (s : State) : exec (.inr r) s = .next (s.stepReg inr8 r) := rfl

theorem exec_inrM (s : State) : exec .inrM s = .next (s.stepMem inr8) := rfl

theorem exec_dcr (r : Reg) (s : State) : exec (.dcr r) s = .next (s.stepReg dcr8 r) := rfl

theorem exec_dcrM (s : State) : exec .dcrM s = .next (s.stepMem dcr8) := rfl

/-- A low nibble is compared as a number or as four bits. -/
theorem lowNibble_eq_iff (v : Byte) (n : BitVec 4) : lowNibble v = n.toNat ↔ v.extractLsb' 0 4 = n := by
  rw [lowNibble_eq, BitVec.toNat_inj]

theorem inr8_eq (v : Byte) (f : Flags) :
    inr8 v f = (v + 1, resultFlags (v + 1) (decide (v.extractLsb' 0 4 = 0xF)) f.cy) := by
  have hac : (lowNibble v == 15) = decide (v.extractLsb' 0 4 = 0xF) :=
    decide_eq_decide.mpr (lowNibble_eq_iff v 0xF)
  rw [inr8, Flags.szp_eq, hac]
  rfl

theorem dcr8_eq (v : Byte) (f : Flags) :
    dcr8 v f = (v - 1, resultFlags (v - 1) (decide (v.extractLsb' 0 4 ≠ 0x0)) f.cy) := by
  have hac : (lowNibble v != 0) = decide (v.extractLsb' 0 4 ≠ 0x0) := by
    rw [decide_not]
    exact congrArg not (decide_eq_decide.mpr (lowNibble_eq_iff v 0x0))
  rw [dcr8, Flags.szp_eq, hac]
  rfl

/-- Settles O12, by the values of the two counts and the two shapes, of a register and of the byte at HL. -/
theorem incrementsAndDecrementsKeepCarry : Obligations.IncrementsAndDecrementsKeepCarry := by
  unfold Obligations.IncrementsAndDecrementsKeepCarry
  refine fun s => ⟨fun r => ?inr, fun r => ?dcr, ?inrM, ?dcrM⟩
  case inr => exact runs_of_encode_middle r.code rfl rfl rfl (by rw [exec_inr, State.stepReg_eq, inr8_eq])
  case dcr => exact runs_of_encode_middle r.code rfl rfl rfl (by rw [exec_dcr, State.stepReg_eq, dcr8_eq])
  case inrM => exact runs_of_encode rfl rfl (by rw [exec_inrM, State.stepMem_eq, inr8_eq])
  case dcrM => exact runs_of_encode rfl rfl (by rw [exec_dcrM, State.stepMem_eq, dcr8_eq])

/-! ### The 16-bit registers (R23) -/

/-- A pair reads as what was written to it. -/
@[simp] theorem State.setPair_pair_same (s : State) (rp : RegPair) (v : Addr) : (s.setPair rp v).pair rp = v := by
  cases rp with
  | bc | de | hl => exact word16_halves v
  | sp => rfl

/-- Writing one of the four leaves the others alone. -/
theorem State.setPair_pair_other (s : State) {rp rp' : RegPair} (v : Addr) (h : rp' ≠ rp) :
    (s.setPair rp v).pair rp' = s.pair rp' := by
  cases rp <;> cases rp'
  case bc.bc | de.de | hl.hl | sp.sp => exact absurd rfl h
  all_goals rfl

theorem pairsAreViews (s : State) : PairsAreViews s := by
  refine ⟨rfl, rfl, rfl, rfl, rfl, fun v => ⟨rfl, rfl, rfl, rfl, fun rp rp' => ?_⟩⟩
  split
  next h => rw [h, State.setPair_pair_same]
  next h => exact s.setPair_pair_other v h

/-! ### INX and DCX (R120, R121) -/

/-- Ending an instruction after a write of a pair: the write leaves pc and the T states as they were. -/
theorem State.setPair_advance (s : State) (rp : RegPair) (v : Addr) (len t : Nat) :
    (s.setPair rp v).advance len t = seqResult s (s.setPair rp v) (BitVec.ofNat 16 len) t := by
  rw [State.advance, State.retire, State.setPair_pc, State.setPair_tstates, seqResult]

theorem exec_inx (rp : RegPair) (s : State) :
    exec (.inx rp) s = .next ((s.setPair rp (s.pair rp + 1)).advance 1 6) := rfl

theorem exec_dcx (rp : RegPair) (s : State) :
    exec (.dcx rp) s = .next ((s.setPair rp (s.pair rp - 1)).advance 1 6) := rfl

/-- Settles O13, by a write of a pair and the end of the instruction. -/
theorem pairCountsWriteNoFlag : Obligations.PairCountsWriteNoFlag := by
  unfold Obligations.PairCountsWriteNoFlag
  refine fun s => ⟨pairsAreViews s, fun rp => ⟨?inx, ?dcx⟩⟩
  case inx => exact runs_of_encode_pair rp.code rfl rfl rfl (by rw [exec_inx, State.setPair_advance]; rfl)
  case dcx => exact runs_of_encode_pair rp.code rfl rfl rfl (by rw [exec_dcx, State.setPair_advance]; rfl)

/-! ### DAD (R122) -/

/-- The sum of two 16-bit values, in seventeen bits. -/
def sum17 (x y : Addr) : BitVec 17 := x.setWidth 17 + y.setWidth 17

theorem toNat_sum17 (x y : Addr) : (sum17 x y).toNat = x.toNat + y.toNat := by
  have := x.isLt
  have := y.isLt
  simp only [sum17, BitVec.toNat_add, BitVec.toNat_setWidth]
  omega

/-- Bit 16 of the sum is its carry, and the sixteen bits below it are the result. -/
theorem dad16_eq (x y : Addr) : dad16 x y = ((sum17 x y).extractLsb' 0 16, (sum17 x y).getLsbD 16) := by
  have hsum : BitVec.ofNat 16 (x.toNat + y.toNat) = (sum17 x y).extractLsb' 0 16 := by
    apply BitVec.eq_of_toNat_eq
    simp [toNat_sum17]
  have hcarry : decide (x.toNat + y.toNat > 65535) = (sum17 x y).getLsbD 16 := by
    rw [← BitVec.msb_eq_getLsbD_last, BitVec.msb_eq_decide, toNat_sum17]
    exact decide_eq_decide.mpr (by omega)
  rw [dad16, hsum, hcarry]

/-- The halves of the result are bits 15 to 8 and 7 to 0 of the sum. -/
theorem hiByte_extractLsb' (v : BitVec 17) : hiByte (v.extractLsb' 0 16) = v.extractLsb' 8 8 :=
  BitVec.extractLsb'_extractLsb'_of_le (by decide)

theorem loByte_extractLsb' (v : BitVec 17) : loByte (v.extractLsb' 0 16) = v.extractLsb' 0 8 :=
  BitVec.extractLsb'_extractLsb'_of_le (by decide)

/-- What DAD answers (R122). -/
theorem exec_dad (rp : RegPair) (s : State) :
    exec (.dad rp) s = .next (seqResult s
      { s with
        regs := { s.regs with h := (sum17 s.hl (s.pair rp)).extractLsb' 8 8
                              l := (sum17 s.hl (s.pair rp)).extractLsb' 0 8 }
        flags := { s.flags with cy := (sum17 s.hl (s.pair rp)).getLsbD 16 } } 1 10) := by
  have hdad : exec (.dad rp) s = execDad rp s := rfl
  rw [hdad, execDad, dad16_eq, ← hiByte_extractLsb', ← loByte_extractLsb']
  rfl

/-- Settles O14, by the 17-bit sum. -/
theorem dadAddsToHlAndSetsCarryOnly : Obligations.DadAddsToHlAndSetsCarryOnly := by
  unfold Obligations.DadAddsToHlAndSetsCarryOnly
  exact fun s => ⟨pairsAreViews s, fun rp => runs_of_encode_pair rp.code rfl rfl rfl (exec_dad rp s)⟩

end Sys2Proof.Machine
end

section
/-! PROOFS. DAA (40_arithmetic.md R124): both forms of its rule adjust the low nibble, and the high nibble exactly where
A is above 99H or CY is set; and after an addition of packed-BCD bytes those are the carries of the decimal addition. -/

namespace Sys2Proof.Machine

open Sys2Proof.Claims

/-! ### What the two forms of the rule have in common -/

/-- 06H is added: the low nibble is no decimal digit, or carried. -/
def daaLow (a : Byte) (f : Flags) : Bool := decide (lowNibble a > 9) || f.ac

/-- 60H is added: A is above 99H, or carried. -/
def daaHigh (a : Byte) (f : Flags) : Bool := decide (a.toNat > 0x99) || f.cy

/-- The adjusted A. -/
def daaResult (a : Byte) (f : Flags) : Byte :=
  a + (if daaLow a f then 6 else 0) + (if daaHigh a f then 0x60 else 0)

/-- The adjusted A with its five flags. -/
def daaAdjusted (a : Byte) (f : Flags) : Byte × Flags :=
  (daaResult a f, resultFlags (daaResult a f) (daaLow a f && decide (lowNibble a + 6 > 15)) (daaHigh a f))

/-- A set CY is kept. -/
theorem cy_or_daaHigh (a : Byte) (f : Flags) : (f.cy || daaHigh a f) = daaHigh a f := by
  rw [daaHigh, Bool.or_left_comm, Bool.or_self]

theorem toNat_daaResult (a : Byte) (f : Flags) :
    (daaResult a f).toNat =
      (a.toNat + (if daaLow a f then 6 else 0) + (if daaHigh a f then 0x60 else 0)) % 256 := by
  have ha : a.toNat % 256 = a.toNat := Nat.mod_eq_of_lt a.isLt
  rw [daaResult]
  cases daaLow a f <;> cases daaHigh a f <;> simp [ha]

/-! ### The first form -/

/-- The first form asks for a high nibble above 9, or one of 9 that the low nibble will carry into. -/
theorem daaHigh_eq_of_nibbles (a : Byte) (f : Flags) :
    (f.cy || decide (highNibble a > 9) || (highNibble a == 9 && decide (lowNibble a > 9))) = daaHigh a f := by
  have hnibbles : a.toNat > 0x99 ↔ highNibble a > 9 ∨ highNibble a = 9 ∧ lowNibble a > 9 := by
    simp only [highNibble, lowNibble]
    omega
  rw [daaHigh, decide_eq_decide.mpr hnibbles, Bool.or_assoc, Bool.or_comm, Bool.decide_or, Bool.decide_and,
    Bool.beq_eq_decide_eq]

/-- A low nibble that is not adjusted does not carry. -/
theorem daaCarry_eq (a : Byte) (low : Bool) :
    decide (lowNibble a + (if low then 6 else 0) > 15) = (low && decide (lowNibble a + 6 > 15)) := by
  cases low with
  | true => rfl
  | false =>
    have hlt : ¬ lowNibble a > 15 := by
      simp only [lowNibble]
      omega
    simp [hlt]

/-- The correction is added as one number or as two bytes. -/
theorem daaResult_eq_ofNat (a : Byte) (f : Flags) :
    BitVec.ofNat 8 (a.toNat + ((if daaLow a f then 6 else 0) + (if daaHigh a f then 0x60 else 0))) =
      daaResult a f := by
  apply BitVec.eq_of_toNat_eq
  rw [toNat_daaResult, BitVec.toNat_ofNat, Nat.add_assoc]

theorem daa8_eq (a : Byte) (f : Flags) : daa8 a f = daaAdjusted a f := by
  have hlow : (f.ac || decide (lowNibble a > 9)) = daaLow a f := Bool.or_comm _ _
  simp only [daa8, hlow, daaHigh_eq_of_nibbles, daaCarry_eq, daaResult_eq_ofNat, cy_or_daaHigh]
  rw [daaAdjusted, resultFlags_eq]

/-! ### The second form -/

theorem lowNibble_le_of_not_daaLow {a : Byte} {f : Flags} (h : daaLow a f = false) : lowNibble a ≤ 9 := by
  simpa [daaLow] using (Bool.or_eq_false_iff.mp h).1

/-- With the low nibble adjusted, A is 9AH or more exactly where the high nibble is above 9 now or has carried. -/
theorem highNibble_add_six (a : Byte) :
    (decide (highNibble (a + 6) > 9) || decide (a.toNat + 6 > 255)) = decide (a.toNat > 0x99) := by
  have := a.isLt
  have hsix : (6 : Byte).toNat = 6 := rfl
  rw [← Bool.decide_or, highNibble, BitVec.toNat_add, hsix]
  exact decide_eq_decide.mpr (by omega)

/-- With a decimal low nibble, A is above 99H exactly where the high nibble is above 9. -/
theorem highNibble_of_lowNibble_le {a : Byte} (h : lowNibble a ≤ 9) :
    decide (highNibble a > 9) = decide (a.toNat > 0x99) := by
  simp only [highNibble, lowNibble] at h ⊢
  exact decide_eq_decide.mpr (by omega)

/-- The second form asks for a high nibble above 9 once the low nibble is adjusted, or a carry of that adjustment. -/
theorem daaHigh_eq_of_steps (a : Byte) (f : Flags) :
    (decide (highNibble (if daaLow a f then a + 6 else a) > 9) || f.cy ||
      (daaLow a f && decide (a.toNat + 6 > 255))) = daaHigh a f := by
  rw [daaHigh, Bool.or_right_comm]
  cases hlow : daaLow a f with
  | true => rw [if_pos rfl, Bool.true_and, highNibble_add_six]
  | false =>
    rw [if_neg Bool.false_ne_true, Bool.false_and, Bool.or_false,
      highNibble_of_lowNibble_le (lowNibble_le_of_not_daaLow hlow)]

theorem daaResult_eq_steps (a : Byte) (f : Flags) :
    (if daaHigh a f then (if daaLow a f then a + 6 else a) + 0x60 else if daaLow a f then a + 6 else a) =
      daaResult a f := by
  rw [daaResult]
  cases daaLow a f <;> cases daaHigh a f <;> simp

theorem daaTwoSteps_eq (a : Byte) (f : Flags) : daaTwoSteps a f = daaAdjusted a f := by
  have hlow : (decide (a.toNat % 16 > 9) || f.ac) = daaLow a f := rfl
  have hhigh := daaHigh_eq_of_steps a f
  rw [highNibble] at hhigh
  simp only [daaTwoSteps, hlow, hhigh, daaResult_eq_steps, cy_or_daaHigh]
  rfl

/-- What DAA answers (R124). -/
theorem exec_daa (s : State) : exec .daa s = .next (accResult s s (daa8 s.regs.a s.flags) 1 4) := rfl

/-- Settles O15: both forms add the same corrections. -/
theorem daaAdjustsTheAccumulator : Obligations.DaaAdjustsTheAccumulator := by
  unfold Obligations.DaaAdjustsTheAccumulator
  have hforms (a : Byte) (f : Flags) : daa8 a f = daaTwoSteps a f := (daa8_eq a f).trans (daaTwoSteps_eq a f).symm
  exact ⟨fun s => runs_of_encode rfl rfl (by rw [exec_daa, hforms]), hforms⟩

/-! ### Packed-BCD sums, by their digits -/

/-- The sum of the units digits and the carry. -/
def unitsSum (x y : Nat) (c : Bool) : Nat := x % 10 + y % 10 + c.toNat

/-- The sum of the tens digits. -/
def tensSum (x y : Nat) : Nat := x / 10 + y / 10

theorem unitsSum_le (x y : Nat) (c : Bool) : unitsSum x y c ≤ 19 := by
  have := c.toNat_lt
  rw [unitsSum]
  omega

theorem sum_eq_digits (x y : Nat) (c : Bool) : x + y + c.toNat = 10 * tensSum x y + unitsSum x y c := by
  rw [tensSum, unitsSum]
  omega

theorem toNat_bcd {n : Nat} (h : n < 100) : (bcd n).toNat = n / 10 * 16 + n % 10 := by
  rw [bcd, BitVec.toNat_ofNat]
  omega

theorem lowNibble_bcd {n : Nat} (h : n < 100) : lowNibble (bcd n) = n % 10 := by
  rw [lowNibble, toNat_bcd h]
  omega

/-- A binary sum of 16 tens and units lies above 99H exactly where the decimal sum reaches 100. -/
theorem above_99H_iff {tens units : Nat} (htens : tens ≤ 18) (hunits : units ≤ 19) :
    (16 * tens + units) % 256 > 0x99 ∨ 16 * tens + units > 255 ↔ 10 * tens + units ≥ 100 := by
  omega

/-- Each correction is 6 times a decimal carry, so that the nibbles of the corrected sum are its decimal digits. -/
theorem corrected_eq_digits {tens units : Nat} (htens : tens ≤ 18) (hunits : units ≤ 19) :
    (16 * tens + units + (if units > 9 then 6 else 0) + (if 10 * tens + units ≥ 100 then 0x60 else 0)) % 256 =
      (10 * tens + units) % 100 / 10 * 16 + (10 * tens + units) % 100 % 10 := by
  have hlow : (if units > 9 then 6 else 0) = 6 * (units / 10) := by split <;> omega
  have hhigh : (if 10 * tens + units ≥ 100 then 0x60 else 0) = 0x60 * ((tens + units / 10) / 10) := by
    split <;> omega
  have htensDigit : (10 * tens + units) % 100 / 10 = (tens + units / 10) % 10 := by omega
  rw [hlow, hhigh, htensDigit]
  omega

section PackedDecimal

variable {x y : Nat} (c : Bool) (hx : x < 100) (hy : y < 100)

include hx hy

theorem tensSum_le : tensSum x y ≤ 18 := by
  rw [tensSum]
  omega

theorem bcd_add_bcd : (bcd x).toNat + (bcd y).toNat + c.toNat = 16 * tensSum x y + unitsSum x y c := by
  rw [toNat_bcd hx, toNat_bcd hy, tensSum, unitsSum]
  omega

theorem toNat_add8_bcd : (add8 (bcd x) (bcd y) c).1.toNat = (16 * tensSum x y + unitsSum x y c) % 256 := by
  rw [← bcd_add_bcd c hx hy]
  exact BitVec.toNat_ofNat _ _

/-- After the binary sum of two packed-BCD bytes the low nibble is adjusted where the units carry. -/
theorem daaLow_add8_bcd :
    daaLow (add8 (bcd x) (bcd y) c).1 (add8 (bcd x) (bcd y) c).2 = decide (unitsSum x y c > 9) := by
  have hac : (add8 (bcd x) (bcd y) c).2.ac = decide (unitsSum x y c > 15) := by
    rw [unitsSum, ← lowNibble_bcd hx, ← lowNibble_bcd hy]
    rfl
  have hunits := unitsSum_le x y c
  rw [daaLow, hac, ← Bool.decide_or, lowNibble, toNat_add8_bcd c hx hy]
  exact decide_eq_decide.mpr (by omega)

/-- The high nibble is adjusted where the decimal sum reaches 100. -/
theorem daaHigh_add8_bcd :
    daaHigh (add8 (bcd x) (bcd y) c).1 (add8 (bcd x) (bcd y) c).2 = decide (x + y + c.toNat ≥ 100) := by
  have hcy : (add8 (bcd x) (bcd y) c).2.cy = decide (16 * tensSum x y + unitsSum x y c > 255) := by
    rw [← bcd_add_bcd c hx hy]
    rfl
  rw [daaHigh, hcy, ← Bool.decide_or, toNat_add8_bcd c hx hy, sum_eq_digits]
  exact decide_eq_decide.mpr (above_99H_iff (tensSum_le hx hy) (unitsSum_le x y c))

/-- The two corrections make the packed-BCD byte of the decimal sum. -/
theorem daaResult_add8_bcd :
    daaResult (add8 (bcd x) (bcd y) c).1 (add8 (bcd x) (bcd y) c).2 = bcd ((x + y + c.toNat) % 100) := by
  apply BitVec.eq_of_toNat_eq
  rw [toNat_daaResult, daaLow_add8_bcd c hx hy, daaHigh_add8_bcd c hx hy, toNat_bcd (Nat.mod_lt _ (by decide)),
    toNat_add8_bcd c hx hy, sum_eq_digits]
  simpa only [decide_eq_true_eq, Nat.add_assoc, Nat.mod_add_mod] using
    corrected_eq_digits (tensSum_le hx hy) (unitsSum_le x y c)

end PackedDecimal

/-- Settles O9: DAA adds its corrections where the decimal addition carries. -/
theorem daaCorrectsPackedDecimalSums : Obligations.DaaCorrectsPackedDecimalSums := by
  unfold Obligations.DaaCorrectsPackedDecimalSums
  intro x y c hx hy sum
  rw [daa8_eq]
  exact ⟨daaResult_add8_bcd c hx hy, daaHigh_add8_bcd c hx hy⟩

end Sys2Proof.Machine
end

section
/-! PROOFS. The logical instructions (41_logical.md R140 to R159): the bitwise operations and the compares by their
operand, the complements, and the rotates, a shift by one place with one bit coming in. -/

namespace Sys2Proof.Machine

open Sys2Proof.Claims

/-! ### The bitwise operations (R140 to R149) -/

theorem logicFlags_eq (res : Byte) (isAnd : Bool) : logicFlags res isAnd = resultFlags res isAnd false := by
  rw [resultFlags_eq]
  rfl

/-- Settles O16: each form is an accumulator operation whose flags are those of R140. -/
theorem bitwiseInstructionsPutResultAndFlags : Obligations.BitwiseInstructionsPutResultAndFlags := by
  unfold Obligations.BitwiseInstructionsPutResultAndFlags
  simp only [← logicFlags_eq]
  refine fun s => ⟨fun r => ?ana, ?anaM, fun data => ?ani, fun r => ?xra, ?xraM, fun data => ?xri,
    fun r => ?ora, ?oraM, fun data => ?ori⟩
  case ana => exact runs_accumulate_reg and8 r rfl rfl rfl rfl
  case anaM => exact runs_accumulate and8 .mem rfl rfl rfl
  case ani => exact runs_accumulate and8 (.imm data) rfl rfl rfl
  case xra => exact runs_accumulate_reg xor8 r rfl rfl rfl rfl
  case xraM => exact runs_accumulate xor8 .mem rfl rfl rfl
  case xri => exact runs_accumulate xor8 (.imm data) rfl rfl rfl
  case ora => exact runs_accumulate_reg or8 r rfl rfl rfl rfl
  case oraM => exact runs_accumulate or8 .mem rfl rfl rfl
  case ori => exact runs_accumulate or8 (.imm data) rfl rfl rfl

/-! ### The compares (R150 to R152) -/

/-- A compare reads its operand, then writes the flags, pc and the T states. -/
theorem State.compare_eq (s : State) (src : Operand) :
    s.compare src =
      flagResult s (s.readOperand src).2 (sub8 s.regs.a (s.readOperand src).1 false).2
        (BitVec.ofNat 16 src.len) src.tstates := by
  obtain ⟨_, _, _, h⟩ := s.readOperand_frame src
  rw [State.compare, h]
  rfl

theorem exec_cmp (r : Reg) (s : State) : exec (.cmp r) s = .next (s.compare (.reg r)) := rfl

theorem exec_cmpM (s : State) : exec .cmpM s = .next (s.compare .mem) := rfl

theorem exec_cpi (data : Byte) (s : State) : exec (.cpi data) s = .next (s.compare (.imm data)) := rfl

/-- What Z, CY and S of a difference without borrow say of its operands. -/
theorem sub8_flags_without_borrow (a v : Byte) :
    (sub8 a v false).2.z = decide (a = v) ∧ (sub8 a v false).2.cy = decide (a.toNat < v.toNat) ∧
      (sub8 a v false).2.s = (a - v).getLsbD 7 := by
  have hdiff : a - v - (BitVec.ofBool false).setWidth 8 = a - v := BitVec.sub_zero _
  rw [sub8_eq, hdiff]
  exact ⟨decide_eq_decide.mpr sub_eq_zero, rfl, rfl⟩

/-- Settles O17: each form is a compare, and its flags are those of a difference without borrow. -/
theorem comparesWriteFlagsOnly : Obligations.ComparesWriteFlagsOnly := by
  unfold Obligations.ComparesWriteFlagsOnly
  refine fun s => ⟨fun r => ?cmp, ?cmpM, fun data => ?cpi, sub8_flags_without_borrow s.regs.a⟩
  case cmp => exact runs_of_encode_low r.code rfl rfl rfl (by rw [exec_cmp, State.compare_eq]; rfl)
  case cmpM => exact runs_of_encode rfl rfl (by rw [exec_cmpM, State.compare_eq]; rfl)
  case cpi => exact runs_of_encode rfl rfl (by rw [exec_cpi, State.compare_eq]; rfl)

/-! ### CMA, CMC and STC (R153 to R155) -/

theorem exec_cma (s : State) : exec .cma s = .next (accResult s s (s.regs.a ^^^ 0xFF, s.flags) 1 4) := rfl

theorem exec_cmc (s : State) :
    exec .cmc s = .next (flagResult s s { s.flags with cy := !s.flags.cy } 1 4) := rfl

theorem exec_stc (s : State) : exec .stc s = .next (flagResult s s { s.flags with cy := true } 1 4) := rfl

/-- Settles O18: complementing a byte is an exclusive OR with FFH. -/
theorem complementsAndSetCarry : Obligations.ComplementsAndSetCarry := by
  unfold Obligations.ComplementsAndSetCarry
  refine fun s => ⟨?cma, ?cmc, ?stc⟩
  case cma =>
    have hcomplement : s.regs.a ^^^ 0xFF = ~~~ s.regs.a := BitVec.xor_allOnes
    exact runs_of_encode rfl rfl (by rw [exec_cma, hcomplement])
  case cmc => exact runs_of_encode rfl rfl (exec_cmc s)
  case stc => exact runs_of_encode rfl rfl (exec_stc s)

/-! ### The rotates (R156 to R159) -/

/-- A byte moved up one place, with the given bit coming in at the bottom. -/
def shiftInLow (a : Byte) (b : Bool) : Byte := a.extractLsb' 0 7 ++ flagBit b

/-- A byte moved down one place, with the given bit coming in at the top. -/
def shiftInHigh (a : Byte) (b : Bool) : Byte := flagBit b ++ a.extractLsb' 1 7

/-- A bit as a byte: the way the statement writes CY. -/
theorem ite_eq_setWidth_ofBool (b : Bool) : (if b then 1 else 0 : Byte) = (BitVec.ofBool b).setWidth 8 := by
  cases b <;> rfl

theorem shiftInLow_eq (a : Byte) (b : Bool) : shiftInLow a b = a <<< 1 ||| (if b then 1 else 0) := by
  rw [ite_eq_setWidth_ofBool]
  refine BitVec.eq_of_getLsbD_eq fun k hk => ?_
  cases k with
  | zero =>
    rw [shiftInLow, getLsbD_append_flagBit_zero]
    simp
  | succ k =>
    rw [shiftInLow, getLsbD_append_flagBit_succ]
    simp [hk, Nat.lt_of_succ_lt_succ hk, BitVec.getLsbD_eq_getElem (Nat.lt_of_succ_lt hk)]

theorem shiftInHigh_eq (a : Byte) (b : Bool) : shiftInHigh a b = a >>> 1 ||| (if b then 1 else 0 : Byte) <<< 7 := by
  rw [ite_eq_setWidth_ofBool]
  refine BitVec.eq_of_getLsbD_eq fun k hk => ?_
  rw [shiftInHigh, BitVec.getLsbD_append]
  by_cases hlow : k < 7
  · simp [hlow, Nat.add_comm]
  · have htop : k = 7 := by omega
    subst htop
    simp [flagBit]

/-- Bit 7 alone is left of a byte moved down seven places. -/
theorem ushiftRight_seven (a : Byte) : a >>> 7 = if a.getLsbD 7 then 1 else 0 := by
  rw [ite_eq_setWidth_ofBool]
  ext k hk
  cases k with
  | zero => simp
  | succ k =>
    have habove : 8 ≤ 7 + (k + 1) := by omega
    simp [BitVec.getLsbD_of_ge a _ habove]

/-- Bit 0 alone is left of a byte moved up seven places. -/
theorem shiftLeft_seven (a : Byte) : a <<< 7 = (if a.getLsbD 0 then 1 else 0 : Byte) <<< 7 := by
  rw [ite_eq_setWidth_ofBool]
  ext k hk
  by_cases hlow : k < 7
  · simp [hlow]
  · have htop : k = 7 := by omega
    subst htop
    simp

theorem exec_rlc (s : State) : exec .rlc s =
    .next (accResult s s (shiftInLow s.regs.a (s.regs.a.getLsbD 7), { s.flags with cy := s.regs.a.getLsbD 7 }) 1 4) :=
  rfl

theorem exec_rrc (s : State) : exec .rrc s =
    .next (accResult s s (shiftInHigh s.regs.a (s.regs.a.getLsbD 0), { s.flags with cy := s.regs.a.getLsbD 0 }) 1 4) :=
  rfl

theorem exec_ral (s : State) : exec .ral s =
    .next (accResult s s (shiftInLow s.regs.a s.flags.cy, { s.flags with cy := s.regs.a.getLsbD 7 }) 1 4) := rfl

theorem exec_rar (s : State) : exec .rar s =
    .next (accResult s s (shiftInHigh s.regs.a s.flags.cy, { s.flags with cy := s.regs.a.getLsbD 0 }) 1 4) := rfl

/-- Settles O19: each rotate is a shift by one place; the bit that comes in is the one shifted out, or CY. -/
theorem rotatesWriteAccumulatorAndCarry : Obligations.RotatesWriteAccumulatorAndCarry := by
  unfold Obligations.RotatesWriteAccumulatorAndCarry
  refine fun s => ⟨?rlc, ?rrc, ?ral, ?rar⟩
  case rlc => exact runs_of_encode rfl rfl (by rw [exec_rlc, shiftInLow_eq, ushiftRight_seven])
  case rrc => exact runs_of_encode rfl rfl (by rw [exec_rrc, shiftInHigh_eq, ← shiftLeft_seven])
  case ral => exact runs_of_encode rfl rfl (by rw [exec_ral, shiftInLow_eq])
  case rar => exact runs_of_encode rfl rfl (by rw [exec_rar, shiftInHigh_eq])

end Sys2Proof.Machine
end

section
/-! PROOFS. The branch instructions (42_branch.md R171 to R199): an instruction with a 16-bit operand, the shapes of
jump, call and return as the states the statements write out, and the forms of each by their condition (R170). -/

namespace Sys2Proof.Machine

open Sys2Proof.Claims

/-! ### Instructions with a 16-bit operand (R71) -/

/-- The operand's bytes as the encoder writes them, low half first. -/
theorem form3_eq_operand16 (op : Byte) (v : Addr) : form3 op v = op :: operand16 v := by
  have hlow : loByte v = v.setWidth 8 := (BitVec.setWidth_eq_extractLsb' (by decide)).symm
  have hhigh : hiByte v = (v >>> 8).setWidth 8 := BitVec.setWidth_ushiftRight_eq_extractLsb.symm
  rw [form3, operand16, hlow, hhigh]

/-- A three-byte instruction with a 16-bit operand. -/
theorem runs_of_encode_operand16 {i : Instr} {op : Byte} {v : Addr} {s t : State} (hwf : i.WellFormed = true)
    (hbytes : encode i = form3 op v) (hexec : exec i s = .next t) : Runs i (op :: operand16 v) s t :=
  runs_of_encode hwf (by rw [hbytes, form3_eq_operand16]) hexec

/-! ### The shapes of meaning, as the states they answer -/

/-- Ending an instruction at an address, after operations that leave the T states as they were. -/
theorem State.retire_eq_jumpResult {s after : State} (target : Addr) (t : Nat) (h : after.tstates = s.tstates) :
    after.retire target t = jumpResult s after target t := by
  rw [State.retire, h, jumpResult]

/-- A conditional jump goes to its target, or on to the next instruction. -/
theorem State.jumpIf_eq_choose (s : State) (cond : Cond) (target : Addr) :
    s.jumpIf cond target =
      choose (s.flags.holds cond) (jumpResult s s target 10) (seqResult s s 3 7) := rfl

/-- A call pushes the address of the instruction after it. -/
theorem State.callTo_eq_jumpResult (s : State) (target : Addr) (len t : Nat) :
    s.callTo target len t = jumpResult s (s.push16 (s.pc + BitVec.ofNat 16 len)) target t :=
  State.retire_eq_jumpResult target t (s.push16_tstates _)

/-- A conditional call is a call of three bytes, or goes on to the next instruction. -/
theorem State.callIf_eq_choose (s : State) (cond : Cond) (target : Addr) :
    s.callIf cond target =
      choose (s.flags.holds cond) (jumpResult s (s.push16 (s.pc + 3)) target 18) (seqResult s s 3 9) := by
  rw [State.callIf, State.callTo_eq_jumpResult]
  rfl

/-- A return goes to the address it pops. -/
theorem State.returnFrom_eq_jumpResult (s : State) (t : Nat) :
    s.returnFrom t = jumpResult s s.pop16.2 s.pop16.1 t :=
  State.retire_eq_jumpResult s.pop16.1 t s.pop16_tstates

/-- A conditional return is a return, or goes on to the next instruction. -/
theorem State.returnIf_eq_choose (s : State) (cond : Cond) :
    s.returnIf cond =
      choose (s.flags.holds cond) (jumpResult s s.pop16.2 s.pop16.1 12) (seqResult s s 1 6) := by
  rw [State.returnIf, State.returnFrom_eq_jumpResult]
  rfl

/-! ### JMP and the conditional jumps (R171 to R179) -/

theorem exec_jmp (addr : Addr) (s : State) : exec (.jmp addr) s = .next (jumpResult s s addr 10) := rfl

/-- An instruction that is a jump by a condition. -/
theorem runs_jumpIf {i : Instr} {op : Byte} {addr : Addr} {s : State} (cond : Cond) (hwf : i.WellFormed = true)
    (hbytes : encode i = form3 op addr) (hexec : exec i s = .next (s.jumpIf cond addr)) :
    Runs i (op :: operand16 addr) s
      (choose (s.flags.holds cond) (jumpResult s s addr 10) (seqResult s s 3 7)) :=
  runs_of_encode_operand16 hwf hbytes (by rw [hexec, State.jumpIf_eq_choose])

/-- Settles O20: each conditional form is the jump by its condition. -/
theorem jumpsGoWhereTheirConditionSays : Obligations.JumpsGoWhereTheirConditionSays := by
  unfold Obligations.JumpsGoWhereTheirConditionSays
  refine fun s addr => ⟨?jmp, ?jnz, ?jz, ?jnc, ?jc, ?jpo, ?jpe, ?jp, ?jm⟩
  case jmp => exact runs_of_encode_operand16 rfl rfl (exec_jmp addr s)
  case jnz => exact runs_jumpIf .nz rfl rfl rfl
  case jz => exact runs_jumpIf .z rfl rfl rfl
  case jnc => exact runs_jumpIf .nc rfl rfl rfl
  case jc => exact runs_jumpIf .c rfl rfl rfl
  case jpo => exact runs_jumpIf .po rfl rfl rfl
  case jpe => exact runs_jumpIf .pe rfl rfl rfl
  case jp => exact runs_jumpIf .p rfl rfl rfl
  case jm => exact runs_jumpIf .m rfl rfl rfl

/-! ### CALL and the conditional calls (R180 to R188) -/

theorem exec_call (addr : Addr) (s : State) : exec (.call addr) s = .next (s.callTo addr 3 18) := rfl

/-- An instruction that is a call by a condition. -/
theorem runs_callIf {i : Instr} {op : Byte} {addr : Addr} {s : State} (cond : Cond) (hwf : i.WellFormed = true)
    (hbytes : encode i = form3 op addr) (hexec : exec i s = .next (s.callIf cond addr)) :
    Runs i (op :: operand16 addr) s
      (choose (s.flags.holds cond) (jumpResult s (s.push16 (s.pc + 3)) addr 18) (seqResult s s 3 9)) :=
  runs_of_encode_operand16 hwf hbytes (by rw [hexec, State.callIf_eq_choose])

/-- Settles O21: each conditional form is the call by its condition. -/
theorem callsPushTheReturnAddress : Obligations.CallsPushTheReturnAddress := by
  unfold Obligations.CallsPushTheReturnAddress
  refine fun s addr => ⟨?call, ?cnz, ?cz, ?cnc, ?cc, ?cpo, ?cpe, ?cp, ?cm⟩
  case call => exact runs_of_encode_operand16 rfl rfl (by rw [exec_call, State.callTo_eq_jumpResult]; rfl)
  case cnz => exact runs_callIf .nz rfl rfl rfl
  case cz => exact runs_callIf .z rfl rfl rfl
  case cnc => exact runs_callIf .nc rfl rfl rfl
  case cc => exact runs_callIf .c rfl rfl rfl
  case cpo => exact runs_callIf .po rfl rfl rfl
  case cpe => exact runs_callIf .pe rfl rfl rfl
  case cp => exact runs_callIf .p rfl rfl rfl
  case cm => exact runs_callIf .m rfl rfl rfl

/-! ### RET and the conditional returns (R189 to R197) -/

theorem exec_ret (s : State) : exec .ret s = .next (s.returnFrom 10) := rfl

/-- An instruction that is a return by a condition. -/
theorem runs_returnIf {i : Instr} {op : Byte} {s : State} (cond : Cond) (hwf : i.WellFormed = true)
    (hbytes : encode i = [op]) (hexec : exec i s = .next (s.returnIf cond)) :
    Runs i [op] s
      (choose (s.flags.holds cond) (jumpResult s s.pop16.2 s.pop16.1 12) (seqResult s s 1 6)) :=
  runs_of_encode hwf hbytes (by rw [hexec, State.returnIf_eq_choose])

/-- Settles O22: each conditional form is the return by its condition. -/
theorem returnsPopTheProgramCounter : Obligations.ReturnsPopTheProgramCounter := by
  unfold Obligations.ReturnsPopTheProgramCounter
  refine fun s => ⟨?ret, ?rnz, ?rz, ?rnc, ?rc, ?rpo, ?rpe, ?rp, ?rm⟩
  case ret => exact runs_of_encode rfl rfl (by rw [exec_ret, State.returnFrom_eq_jumpResult])
  case rnz => exact runs_returnIf .nz rfl rfl rfl
  case rz => exact runs_returnIf .z rfl rfl rfl
  case rnc => exact runs_returnIf .nc rfl rfl rfl
  case rc => exact runs_returnIf .c rfl rfl rfl
  case rpo => exact runs_returnIf .po rfl rfl rfl
  case rpe => exact runs_returnIf .pe rfl rfl rfl
  case rp => exact runs_returnIf .p rfl rfl rfl
  case rm => exact runs_returnIf .m rfl rfl rfl

/-! ### RST and PCHL (R198, R199) -/

theorem exec_rst (n : BitVec 3) (s : State) : exec (.rst n) s = .next (s.callTo (8 * n.setWidth 16) 1 12) := rfl

theorem exec_pchl (s : State) : exec .pchl s = .next (jumpResult s s s.hl 6) := rfl

/-- Settles O23: RST is a one-byte call. -/
theorem restartAndPchl : Obligations.RestartAndPchl := by
  unfold Obligations.RestartAndPchl
  refine fun s => ⟨fun n => ?rst, ?pchl⟩
  case rst =>
    have htarget : 8 * n.setWidth 16 = BitVec.ofNat 16 (8 * n.toNat) := by
      rw [BitVec.ofNat_mul, BitVec.ofNat_toNat]; rfl
    exact runs_of_encode_middle n rfl rfl rfl
      (by rw [exec_rst, State.callTo_eq_jumpResult, htarget]; rfl)
  case pchl => exact runs_of_encode rfl rfl (exec_pchl s)

end Sys2Proof.Machine
end

section
/-! PROOFS. SIM (43_machine_control_io.md R216): what it answers, each part written under its bit of A. -/

namespace Sys2Proof.Machine

open Sys2Proof.Claims

/-- What SIM answers, its three parts as the model writes them. -/
theorem exec_sim (s : State) : exec .sim s = .next
    (seqResult s
      { s with
        m55 := if s.regs.a.getLsbD 3 then s.regs.a.getLsbD 0 else s.m55
        m65 := if s.regs.a.getLsbD 3 then s.regs.a.getLsbD 1 else s.m65
        m75 := if s.regs.a.getLsbD 3 then s.regs.a.getLsbD 2 else s.m75
        r75 := if s.regs.a.getLsbD 4 then false else s.r75
        sod := if s.regs.a.getLsbD 6 then s.regs.a.getLsbD 7 else s.sod } 1 4) := rfl

/-- A latch that a condition clears stays set when it was set and the condition is false. -/
theorem clearIf_eq_and_not (clear latch : Bool) : (if clear then false else latch) = (latch && !clear) := by
  cases clear
  case false => exact (Bool.and_true latch).symm
  case true => exact (Bool.and_false latch).symm

/-- Settles O26: a part whose bit of A is 0 keeps its value, and R75 is cleared, never set. -/
theorem simWritesMasksLatchAndSerialOutput : Obligations.SimWritesMasksLatchAndSerialOutput := by
  unfold Obligations.SimWritesMasksLatchAndSerialOutput
  intro s a
  have hexec := exec_sim s
  rw [clearIf_eq_and_not] at hexec
  exact runs_of_encode rfl rfl (by simpa only [Bool.cond_eq_ite] using hexec)

end Sys2Proof.Machine
end

section
/-! PROOFS. The data transfer instructions (44_data_transfer.md R230 to R242) and SPHL (45_stack.md R267): a register
written and read back, the end of an instruction after an access, and the moves, loads and stores by these shapes. -/

namespace Sys2Proof.Machine

open Sys2Proof.Claims

/-! ### Registers and pairs as written (R21, R23) -/

/-- A register reads as what was written to it. -/
@[simp] theorem State.setReg_reg_same (s : State) (r : Reg) (v : Byte) : (s.setReg r v).reg r = v := by
  cases r <;> rfl

/-- A read after a write, of the same register or of another. -/
theorem State.setReg_reg (s : State) (r r' : Reg) (v : Byte) :
    (s.setReg r v).reg r' = if r' = r then v else s.reg r' := by
  split
  next h => rw [h, State.setReg_reg_same]
  next h => exact s.setReg_reg_other v h

/-- Writing HL with a value put together from two bytes writes these. -/
theorem State.setPair_hl_word16 (s : State) (hi lo : Byte) :
    s.setPair .hl (word16 hi lo) = { s with regs := { s.regs with h := hi, l := lo } } := by
  rw [State.setPair, hiByte_word16, loByte_word16]

/-- The same for DE. -/
theorem State.setPair_de_word16 (s : State) (hi lo : Byte) :
    s.setPair .de (word16 hi lo) = { s with regs := { s.regs with d := hi, e := lo } } := by
  rw [State.setPair, hiByte_word16, loByte_word16]

/-! ### The end of an instruction after an access -/

/-- Going on to the next instruction, after operations that leave pc and the T states as they were. -/
theorem State.advance_eq_seqResult {s after : State} (len t : Nat) (hpc : after.pc = s.pc)
    (ht : after.tstates = s.tstates) : after.advance len t = seqResult s after (BitVec.ofNat 16 len) t := by
  rw [State.advance, State.retire, hpc, ht, seqResult]

theorem State.store_advance (s : State) (a : Addr) (v : Byte) (len t : Nat) :
    (s.store a v).advance len t = seqResult s (s.store a v) (BitVec.ofNat 16 len) t :=
  State.advance_eq_seqResult len t (s.store_pc a v) (s.store_tstates a v)

/-- A byte loaded into a register: the read leaves the register file as it was. -/
theorem State.load_setReg_advance (s : State) (a : Addr) (r : Reg) (len t : Nat) :
    ((s.load a).2.setReg r (s.load a).1).advance len t =
      seqResult s { (s.load a).2 with regs := s.regs.set r (s.load a).1 } (BitVec.ofNat 16 len) t := by
  rw [State.advance_eq_seqResult (s := s) len t (by simp) (by simp), State.setReg, State.load_regs]

/-- A byte loaded into A: the read leaves the other registers and the flags as they were. -/
theorem State.load_setA_advance (s : State) (a : Addr) (len t : Nat) :
    ((s.load a).2.setA (s.load a).1).advance len t =
      accResult s (s.load a).2 ((s.load a).1, s.flags) (BitVec.ofNat 16 len) t := by
  rw [State.setA, State.load_setReg_advance, ← State.load_flags s a]
  rfl

/-! ### The register moves (R230, R233) -/

/-- A two-byte instruction with a register in bits 5 to 3 of its op code. -/
theorem runs_of_encode_middle_data {i : Instr} {op data : Byte} {q : BitVec 2} {low : BitVec 3} {s t : State}
    (mid : BitVec 3) (hwf : i.WellFormed = true) (hbytes : encode i = form2 (opByte q mid low) data)
    (hop : opByte q 0 low = op) (hexec : exec i s = .next t) : Runs i [op + 8 * mid.setWidth 8, data] s t :=
  runs_of_encode hwf (by rw [hbytes, form2, opByte_eq_add_middle, hop]) hexec

theorem encode_mov (dst src : Reg) :
    encode (.mov dst src) = [0x40 + 8 * dst.code.setWidth 8 + src.code.setWidth 8] := by
  rw [encode, opByte_eq_add_low, opByte_eq_add_middle]
  rfl

theorem exec_mov (dst src : Reg) (s : State) :
    exec (.mov dst src) s = .next (seqResult s (s.setReg dst (s.reg src)) 1 4) := rfl

theorem exec_mvi (r : Reg) (data : Byte) (s : State) :
    exec (.mvi r data) s = .next (seqResult s (s.setReg r data) 2 7) := rfl

/-- Settles O29: both forms are a write of one register. -/
theorem registerMovesWriteOneRegister : Obligations.RegisterMovesWriteOneRegister := by
  unfold Obligations.RegisterMovesWriteOneRegister
  refine fun s => ⟨fun dst src => ?mov, fun r data => ?mvi, fun r r' v => ?written⟩
  case mov => exact runs_of_encode rfl (encode_mov dst src) (exec_mov dst src s)
  case mvi => exact runs_of_encode_middle_data r.code rfl rfl rfl (exec_mvi r data s)
  case written => exact s.setReg_reg r r' v

/-! ### The moves with memory (R231, R232, R234) -/

theorem exec_movFromM (dst : Reg) (s : State) : exec (.movFromM dst) s =
    .next (((s.load s.hl).2.setReg dst (s.load s.hl).1).advance 1 7) := rfl

theorem exec_movToM (src : Reg) (s : State) :
    exec (.movToM src) s = .next ((s.store s.hl (s.reg src)).advance 1 7) := rfl

theorem exec_mviM (data : Byte) (s : State) : exec (.mviM data) s = .next ((s.store s.hl data).advance 2 10) := rfl

/-- Settles O30, by a load into a register and a store, both at the old HL. -/
theorem movesWithMemoryUseHl : Obligations.MovesWithMemoryUseHl := by
  unfold Obligations.MovesWithMemoryUseHl
  refine fun s => ⟨fun dst => ?movFromM, fun src => ?movToM, fun data => ?mviM⟩
  case movFromM =>
    exact runs_of_encode_middle dst.code rfl rfl rfl (by rw [exec_movFromM, State.load_setReg_advance]; rfl)
  case movToM => exact runs_of_encode_low src.code rfl rfl rfl (by rw [exec_movToM, State.store_advance]; rfl)
  case mviM => exact runs_of_encode rfl rfl (by rw [exec_mviM, State.store_advance]; rfl)

/-! ### The pair transfers (R235, R242, R267) -/

theorem exec_lxi (rp : RegPair) (data : Addr) (s : State) :
    exec (.lxi rp data) s = .next ((s.setPair rp data).advance 3 10) := rfl

/-- LXI of any of the four: a write of the pair. -/
theorem runs_lxi {rp : RegPair} {op : Byte} (v : Addr) (s : State) (hop : opBytePair 0b00 rp.code 0 0b001 = op) :
    Runs (.lxi rp v) (op :: operand16 v) s (seqResult s (s.setPair rp v) 3 10) :=
  runs_of_encode_operand16 rfl (by rw [encode, hop]) (by rw [exec_lxi, State.setPair_advance]; rfl)

theorem exec_xchg (s : State) :
    exec .xchg s = .next (((s.setPair .hl s.de).setPair .de s.hl).advance 1 4) := rfl

/-- The two writes of XCHG, each of the other pair's old value. -/
theorem State.setPair_hl_de (s : State) :
    (s.setPair .hl s.de).setPair .de s.hl =
      { s with regs := { s.regs with h := s.regs.d, l := s.regs.e, d := s.regs.h, e := s.regs.l } } := by
  rw [State.hl, State.setPair_de_word16, State.de, State.setPair_hl_word16]

theorem exec_sphl (s : State) : exec .sphl s = .next ((s.setPair .sp s.hl).advance 1 6) := rfl

/-- Settles O31, by the writes of pairs. -/
theorem pairTransfers : Obligations.PairTransfers := by
  unfold Obligations.PairTransfers
  refine fun s => ⟨fun v => ⟨?bc, ?de, ?hl, ?sp⟩, ?xchg, ?sphl⟩
  case bc | de | hl | sp => exact runs_lxi v s rfl
  case xchg => exact runs_of_encode rfl rfl (by rw [exec_xchg, State.setPair_hl_de]; rfl)
  case sphl => exact runs_of_encode rfl rfl (by rw [exec_sphl, State.setPair_advance]; rfl)

/-! ### Loads and stores of A (R236, R237, R240, R241) -/

theorem exec_lda (addr : Addr) (s : State) :
    exec (.lda addr) s = .next (((s.load addr).2.setA (s.load addr).1).advance 3 13) := rfl

theorem exec_sta (addr : Addr) (s : State) :
    exec (.sta addr) s = .next ((s.store addr s.regs.a).advance 3 13) := rfl

theorem exec_ldax (ip : IndexPair) (s : State) : exec (.ldax ip) s =
    .next (((s.load (s.indexAddr ip)).2.setA (s.load (s.indexAddr ip)).1).advance 1 7) := rfl

theorem exec_stax (ip : IndexPair) (s : State) :
    exec (.stax ip) s = .next ((s.store (s.indexAddr ip) s.regs.a).advance 1 7) := rfl

/-- LDAX of either pair: a load into A from the address it holds. -/
theorem runs_ldax {ip : IndexPair} {op : Byte} (s : State)
    (hop : opBytePair 0b00 (0b0#1 ++ ip.code) 1 0b010 = op) :
    Runs (.ldax ip) [op] s
      (accResult s (s.load (s.indexAddr ip)).2 ((s.load (s.indexAddr ip)).1, s.flags) 1 7) :=
  runs_of_encode rfl (by rw [encode, hop]) (by rw [exec_ldax, State.load_setA_advance]; rfl)

/-- STAX of either pair: a store of A to the address it holds. -/
theorem runs_stax {ip : IndexPair} {op : Byte} (s : State)
    (hop : opBytePair 0b00 (0b0#1 ++ ip.code) 0 0b010 = op) :
    Runs (.stax ip) [op] s (seqResult s (s.store (s.indexAddr ip) s.regs.a) 1 7) :=
  runs_of_encode rfl (by rw [encode, hop]) (by rw [exec_stax, State.store_advance]; rfl)

/-- Settles O32, by a load into A and a store, at the operand or at the pair named. -/
theorem accumulatorLoadsAndStores : Obligations.AccumulatorLoadsAndStores := by
  unfold Obligations.AccumulatorLoadsAndStores
  refine fun s => ⟨fun addr => ⟨?lda, ?sta⟩, ⟨?ldaxBC, ?staxBC⟩, ?ldaxDE, ?staxDE⟩
  case lda => exact runs_of_encode_operand16 rfl rfl (by rw [exec_lda, State.load_setA_advance]; rfl)
  case sta => exact runs_of_encode_operand16 rfl rfl (by rw [exec_sta, State.store_advance]; rfl)
  case ldaxBC => exact runs_ldax (ip := .bc) s rfl
  case staxBC => exact runs_stax (ip := .bc) s rfl
  case ldaxDE => exact runs_ldax (ip := .de) s rfl
  case staxDE => exact runs_stax (ip := .de) s rfl

/-! ### Loads and stores of HL (R238, R239) -/

/-- What LHLD answers: neither read changes a register. -/
theorem exec_lhld (addr : Addr) (s : State) : exec (.lhld addr) s = .next
    (seqResult s
      { ((s.load addr).2.load (addr + 1)).2 with
        regs := { s.regs with l := (s.load addr).1, h := ((s.load addr).2.load (addr + 1)).1 } } 3 16) := by
  have hlhld : exec (.lhld addr) s = execLhld addr s := rfl
  rw [hlhld, execLhld, State.advance_eq_seqResult (s := s) 3 16 (by simp) (by simp), State.setPair_hl_word16,
    State.load_regs, State.load_regs]
  rfl

/-- What SHLD answers: the first store leaves pc and the T states as they were, and so does the second. -/
theorem exec_shld (addr : Addr) (s : State) : exec (.shld addr) s = .next
    (seqResult s ((s.store addr s.regs.l).store (addr + 1) s.regs.h) 3 16) :=
  congrArg _ (State.advance_eq_seqResult 3 16 (by simp) (by simp))

/-- Settles O33: two accesses, the low byte's first. -/
theorem pairLoadsAndStoresAreLittleEndian : Obligations.PairLoadsAndStoresAreLittleEndian := by
  unfold Obligations.PairLoadsAndStoresAreLittleEndian
  refine fun s addr => ⟨?lhld, ?shld⟩
  case lhld => exact runs_of_encode_operand16 rfl rfl (exec_lhld addr s)
  case shld => exact runs_of_encode_operand16 rfl rfl (exec_shld addr s)

end Sys2Proof.Machine
end

section
/-! PROOFS. The stack (45_stack.md R260 to R266): the bytes a push writes and what a pop after it reads, then PUSH, POP,
PUSH PSW, POP PSW and XTHL as the states they answer. -/

namespace Sys2Proof.Machine

open Sys2Proof.Claims

/-! ### A pop after a push (R260, R261) -/

/-- The two bytes of a push stand at different addresses. -/
theorem sub_one_ne_sub_two (sp : Addr) : sp - 1 ≠ sp - 2 := by bv_omega

/-- The bytes held after a push are those after its two stores. -/
theorem State.push16_peek (s : State) (v b : Addr) :
    (s.push16 v).peek b = ((s.store (s.sp - 1) (hiByte v)).store (s.sp - 2) (loByte v)).peek b := rfl

/-- A push into RAM leaves the high byte at SP-1: the second store is to another address. -/
theorem State.push16_peek_high {s : State} (v : Addr) (hw : Memory.wf s.mem = true) (hram : stackIsRam s) :
    (s.push16 v).peek (s.sp - 1) = hiByte v := by
  rw [State.push16_peek, State.store_peek_other _ _ (sub_one_ne_sub_two s.sp), State.store_peek_same _ hw hram.1]

/-- A push into RAM leaves the low byte at SP-2. -/
theorem State.push16_peek_low {s : State} (v : Addr) (hw : Memory.wf s.mem = true) (hram : stackIsRam s) :
    (s.push16 v).peek (s.sp - 2) = loByte v := by
  have hkind : (s.store (s.sp - 1) (hiByte v)).kindAt (s.sp - 2) = .ram := (s.store_kindAt _ _ _).trans hram.2
  rw [State.push16_peek, State.store_peek_same _ (State.store_wf _ _ hw) hkind]

/-- A pop in a state whose SP, memory and memory map are those a push into RAM has left: it answers the value pushed
and puts SP back, whatever the other fields are. -/
theorem State.pop16_of_pushed {s t : State} {v : Addr} (hw : Memory.wf s.mem = true) (hram : stackIsRam s)
    (hsp : t.sp = s.sp - 2) (hmem : t.mem = (s.push16 v).mem) (hmap : t.memMap = s.memMap) :
    t.pop16 = (v, { t with sp := s.sp }) := by
  have hnext : s.sp - 2 + 1 = s.sp - 1 := by bv_omega
  have hback : s.sp - 2 + 2 = s.sp := BitVec.sub_add_cancel _ _
  have hpeek (a : Addr) : t.peek a = (s.push16 v).peek a := by rw [State.peek, hmem, State.peek]
  have hplain {a : Addr} (ha : isRam s a) : t.isPlain a = true :=
    State.isPlain_of_ram_or_rom (.inl (by rw [State.kindAt, hmap]; exact ha))
  calc t.pop16 = (word16 (t.peek (t.sp + 1)) (t.peek t.sp), { t with sp := t.sp + 2 }) :=
        State.pop16_plain (by rw [hsp]; exact hplain hram.2) (by rw [hsp, hnext]; exact hplain hram.1)
    _ = (word16 (hiByte v) (loByte v), { t with sp := s.sp }) := by
        rw [hsp, hnext, hback, hpeek, hpeek, State.push16_peek_high v hw hram, State.push16_peek_low v hw hram]
    _ = (v, { t with sp := s.sp }) := by rw [word16_halves]

/-- The same for the instruction after one that ends with a push. -/
theorem seqResult_push16_pop16 {s pushed : State} (v len : Addr) (t : Nat) (hw : Memory.wf pushed.mem = true)
    (hram : stackIsRam pushed) : (seqResult s (pushed.push16 v) len t).pop16 =
      (v, { seqResult s (pushed.push16 v) len t with sp := pushed.sp }) :=
  State.pop16_of_pushed hw hram rfl rfl (pushed.push16_memMap v)

/-- Settles O38: the first two clauses are the definitions of the two operations, the third is a pop right after a
push. -/
theorem popUndoesPush : Obligations.PopUndoesPush := by
  unfold Obligations.PopUndoesPush
  refine ⟨fun _ _ => rfl, fun _ => rfl, fun s v hw hram => ⟨?high, ?low, ?pop⟩⟩
  case high => exact State.push16_peek_high v hw hram
  case low => exact State.push16_peek_low v hw hram
  case pop => exact State.pop16_of_pushed hw hram rfl rfl (s.push16_memMap v)

/-! ### PUSH PSW and POP PSW (R263, R265) -/

/-- What PUSH PSW answers: the draw and the push leave pc and the T states as they were. -/
theorem exec_pushPsw (s : State) : exec .pushPsw s = .next
    (seqResult s (s.drawPsw.2.push16 (word16 s.regs.a (s.flags.toByte s.drawPsw.1))) 1 12) :=
  congrArg _ (State.advance_eq_seqResult 1 12 (State.push16_pc _ _) (State.push16_tstates _ _))

/-- What POP PSW answers: the pop leaves the other registers, pc and the T states as they were. -/
theorem exec_popPsw (s : State) : exec .popPsw s = .next
    (accResult s s.pop16.2 (hiByte s.pop16.1, Flags.ofByte (loByte s.pop16.1)) 1 10) := by
  have hpop : exec .popPsw s = execPopPsw s := rfl
  rw [hpop, execPopPsw, State.advance_eq_seqResult (s := s) 1 10 (by simp) (by simp), State.setA, State.setReg,
    State.pop16_regs]
  rfl

/-- Settles O39: POP PSW pops the value that PUSH PSW pushed, and the flags of its low byte do not depend on the three
open bits. -/
theorem pushPswThenPopPswRestores : Obligations.PushPswThenPopPswRestores := by
  unfold Obligations.PushPswThenPopPswRestores
  intro s hw hram
  refine ⟨_, _, exec_pushPsw s, exec_popPsw _, ?_⟩
  rw [seqResult_push16_pop16 (pushed := s.drawPsw.2) _ _ _ hw hram, hiByte_word16, loByte_word16, Flags.ofByte_toByte]
  refine ⟨?regs, rfl, rfl⟩
  case regs => rw [accResult, seqResult, State.push16_regs, State.drawPsw_regs]

/-- A bit of the low half is the same bit of the value. -/
theorem getLsbD_loByte (v : Addr) {k : Nat} (hk : k < 8) : (loByte v).getLsbD k = v.getLsbD k := by
  simp [loByte, hk]

/-- The flags in the low half of a value. -/
theorem Flags.ofByte_loByte (v : Addr) : Flags.ofByte (loByte v) =
    { s := v.getLsbD 7, z := v.getLsbD 6, ac := v.getLsbD 4, p := v.getLsbD 2, cy := v.getLsbD 0 } := by
  simp only [Flags.ofByte, getLsbD_loByte v, Nat.reduceLT]

/-- Settles O35: the flag byte pushed is that of the flags and of the three bits drawn. -/
theorem pswMovesAccumulatorAndFlags : Obligations.PswMovesAccumulatorAndFlags := by
  unfold Obligations.PswMovesAccumulatorAndFlags
  refine fun s => ⟨?pushPsw, ?popPsw⟩
  case pushPsw =>
    obtain ⟨hs, hz, hac, hp, hcy, _⟩ := flagByteHoldsTheFlags.1 s.flags s.drawPsw.1
    exact ⟨s.flags.toByte s.drawPsw.1, hs, hz, hac, hp, hcy, runs_of_encode rfl rfl (exec_pushPsw s)⟩
  case popPsw => exact runs_of_encode rfl rfl (by rw [exec_popPsw, Flags.ofByte_loByte]; rfl)

/-! ### PUSH and POP of a pair (R262, R264) -/

/-- What PUSH answers: the push leaves pc and the T states as they were. -/
theorem exec_push (p : StackPair) (s : State) : exec (.push p) s = .next
    (seqResult s (s.push16 (s.pair (stackRegPair p))) 1 12) :=
  congrArg _ (State.advance_eq_seqResult 1 12 (State.push16_pc _ _) (State.push16_tstates _ _))

/-- A pop into a pair: the other registers are those from before the pop. -/
theorem State.pop16_setPair (s : State) (p : StackPair) (v : Addr) :
    s.pop16.2.setPair (stackRegPair p) v =
      { s.pop16.2 with regs := (s.setPair (stackRegPair p) v).regs } := by
  cases p <;> simp only [stackRegPair, State.setPair, State.pop16_regs]

/-- What POP answers: the pop leaves the other registers, pc and the T states as they were. -/
theorem exec_pop (p : StackPair) (s : State) : exec (.pop p) s = .next
    (seqResult s { s.pop16.2 with regs := (s.setPair (stackRegPair p) s.pop16.1).regs } 1 10) := by
  have hpop : exec (.pop p) s = execPop p s := rfl
  rw [hpop, execPop, State.advance_eq_seqResult (s := s) 1 10 (by simp) (by simp), State.pop16_setPair]
  rfl

/-- Settles O34: each form is the push or the pop of its pair. -/
theorem pushAndPopMovePairs : Obligations.PushAndPopMovePairs := by
  unfold Obligations.PushAndPopMovePairs
  refine fun s => ⟨?pushBC, ?pushDE, ?pushHL, ?popBC, ?popDE, ?popHL⟩
  case pushBC => exact runs_of_encode rfl rfl (exec_push .bc s)
  case pushDE => exact runs_of_encode rfl rfl (exec_push .de s)
  case pushHL => exact runs_of_encode rfl rfl (exec_push .hl s)
  case popBC => exact runs_of_encode rfl rfl (exec_pop .bc s)
  case popDE => exact runs_of_encode rfl rfl (exec_pop .de s)
  case popHL => exact runs_of_encode rfl rfl (exec_pop .hl s)

/-! ### XTHL (R266) -/

/-- What XTHL answers: its four accesses leave the registers, pc and the T states as they were. -/
theorem exec_xthl (s : State) : exec .xthl s = .next
    (seqResult s
      { (((s.load s.sp).2.load (s.sp + 1)).2.store (s.sp + 1) s.regs.h).store s.sp s.regs.l with
        regs := { s.regs with h := ((s.load s.sp).2.load (s.sp + 1)).1, l := (s.load s.sp).1 } } 1 16) := by
  have hxthl : exec .xthl s = execXthl s := rfl
  rw [hxthl, execXthl, State.advance_eq_seqResult (s := s) 1 16 (by simp) (by simp), State.setPair_hl_word16,
    State.store_regs, State.store_regs, State.load_regs, State.load_regs]
  rfl

/-- Settles O36: both bytes are read before either is written. -/
theorem xthlExchangesHlWithTheStackTop : Obligations.XthlExchangesHlWithTheStackTop := by
  unfold Obligations.XthlExchangesHlWithTheStackTop
  exact fun s => runs_of_encode rfl rfl (exec_xthl s)

end Sys2Proof.Machine
end

section
/-! PROOFS. Exceptions and interrupts (60_exceptions.md): taking an interrupt and returning from it, the instruction of
an INTR acknowledge, the sampling point by priority, the halt state, and the two ways a step can stop. -/

namespace Sys2Proof.Machine

open Sys2Proof.Claims

/-! ### Taking an interrupt and returning (R297, R298, R302) -/

/-- Settles O42: the two flip-flops that depend on the source, source by source. -/
theorem takingAnInterruptPushesPcAndDisables : Obligations.TakingAnInterruptPushesPcAndDisables := by
  unfold Obligations.TakingAnInterruptPushesPcAndDisables
  intro s source target
  cases source <;> rfl

@[simp] theorem State.takeInterrupt_regs (s : State) (source : IntSource) (target : Addr) :
    (s.takeInterrupt source target).regs = s.regs := State.push16_regs _ _
@[simp] theorem State.takeInterrupt_flags (s : State) (source : IntSource) (target : Addr) :
    (s.takeInterrupt source target).flags = s.flags := State.push16_flags _ _
@[simp] theorem State.takeInterrupt_sp (s : State) (source : IntSource) (target : Addr) :
    (s.takeInterrupt source target).sp = s.sp - 2 := rfl
@[simp] theorem State.takeInterrupt_m55 (s : State) (source : IntSource) (target : Addr) :
    (s.takeInterrupt source target).m55 = s.m55 := State.push16_m55 _ _
@[simp] theorem State.takeInterrupt_m65 (s : State) (source : IntSource) (target : Addr) :
    (s.takeInterrupt source target).m65 = s.m65 := State.push16_m65 _ _
@[simp] theorem State.takeInterrupt_m75 (s : State) (source : IntSource) (target : Addr) :
    (s.takeInterrupt source target).m75 = s.m75 := State.push16_m75 _ _
@[simp] theorem State.takeInterrupt_halted (s : State) (source : IntSource) (target : Addr) :
    (s.takeInterrupt source target).halted = false := State.push16_halted _ _
@[simp] theorem State.takeInterrupt_memMap (s : State) (source : IntSource) (target : Addr) :
    (s.takeInterrupt source target).memMap = s.memMap := State.push16_memMap _ _

/-- The acknowledge is among the events that taking an interrupt adds: the push after it adds its own behind it. -/
theorem State.acknowledge_mem_takeInterrupt_trace (s : State) (source : IntSource) (target : Addr) :
    .acknowledge source ∈ (s.takeInterrupt source target).trace.drop s.trace.length := by
  obtain ⟨⟨later, htrace⟩, _, _⟩ := (State.Grows.refl (s.acknowledge source)).push16 (v := s.pc)
  have hadded : (s.takeInterrupt source target).trace = s.trace ++ (.acknowledge source :: later) := by
    rw [State.takeInterrupt, ← htrace, State.acknowledge, List.append_assoc, List.singleton_append]
  simp [hadded]

/-- RET right after an interrupt taken into RAM pops the pc that the interrupt pushed. -/
theorem exec_ret_takeInterrupt {s : State} (source : IntSource) (target : Addr) (hw : Memory.wf s.mem = true)
    (hram : stackIsRam s) :
    exec .ret (s.takeInterrupt source target) = .next
      (jumpResult (s.takeInterrupt source target) { s.takeInterrupt source target with sp := s.sp } s.pc 10) := by
  have hpop : (s.takeInterrupt source target).pop16 = (s.pc, { s.takeInterrupt source target with sp := s.sp }) :=
    State.pop16_of_pushed hw hram (s.takeInterrupt_sp source target) (s.takeInterrupt_mem source target)
      (s.takeInterrupt_memMap source target)
  rw [exec_ret, State.returnFrom_eq_jumpResult, hpop]

/-- Settles O45: the pop of RET undoes the push, and what else the two write is not of the interrupted program. -/
theorem returnResumesTheInterruptedProgram : Obligations.ReturnResumesTheInterruptedProgram := by
  unfold Obligations.ReturnResumesTheInterruptedProgram
  intro s source target hw hram
  refine ⟨_, exec_ret_takeInterrupt source target hw hram, rfl, rfl, s.takeInterrupt_regs source target,
    s.takeInterrupt_flags source target, s.takeInterrupt_m55 source target, s.takeInterrupt_m65 source target,
    s.takeInterrupt_m75 source target, s.takeInterrupt_inte source target, fun a hhigh hlow => ?_⟩
  calc _ = (s.push16 s.pc).peek a := State.peek_congr (s.takeInterrupt_mem source target) a
    _ = s.peek a := s.push16_peek_other _ hhigh hlow

/-! ### The instruction of an INTR acknowledge (R301) -/

/-- The bytes of RST n, whatever follows them, go to 8*n. -/
theorem intrTarget_rst (n : BitVec 3) (lo hi : Byte) :
    intrTarget (0xC7 + 8 * n.setWidth 8) lo hi = some (8 * n.setWidth 16) := by
  have hop : opByte 0b11 n 0b111 = 0xC7 + 8 * n.setWidth 8 := opByte_eq_add_middle 0b11 n 0b111
  have hdec : decodeBytes (opByte 0b11 n 0b111) lo hi = .rst n := by simp [decodeBytes, decodeQuadrant3]
  rw [← hop, intrTarget, hdec]

theorem intrTarget_call (lo hi : Byte) : intrTarget 0xCD lo hi = some (hi ++ lo) := rfl

/-- The outer fields of RST n (R73). -/
theorem opByte_rst_and (n : BitVec 3) : opByte 0b11 n 0b111 &&& 0xC7 = 0xC7 := by
  revert n
  decide

/-- An op code with the outer fields of RST is RST of its middle field (R73). -/
theorem eq_rst_of_and_eq {op : Byte} (h : op &&& 0xC7 = 0xC7) : op = 0xC7 + 8 * (opMiddle op).setWidth 8 := by
  revert op
  decide

/-- Eight times a 3-bit number does not wrap in 16 bits. -/
theorem restartAddress_eq (n : BitVec 3) : 8 * n.setWidth 16 = BitVec.ofNat 16 (8 * n.toNat) := by
  revert n
  decide

/-- Only RST n and CALL have a target: an instruction is encoded by the bytes it was decoded from. -/
theorem intrTarget_eq_none_iff (op lo hi : Byte) :
    intrTarget op lo hi = none ↔ op ≠ 0xCD ∧ op &&& 0xC7 ≠ 0xC7 := by
  constructor
  · intro hnone
    refine ⟨?notCall, fun hrst => ?notRst⟩
    case notCall =>
      rintro rfl
      cases (intrTarget_call lo hi).symm.trans hnone
    case notRst =>
      rw [eq_rst_of_and_eq hrst, intrTarget_rst] at hnone
      cases hnone
  · rintro ⟨hcall, hrst⟩
    obtain ⟨_, henc⟩ := decodeBytes_readsFrom op lo hi
    unfold intrTarget
    split
    next n hdec =>
      rw [hdec] at henc
      have hop : opByte 0b11 n 0b111 = op := List.head_eq_of_cons_eq henc
      exact absurd (hop ▸ opByte_rst_and n) hrst
    next target hdec =>
      rw [hdec] at henc
      exact absurd (List.head_eq_of_cons_eq henc).symm hcall
    next => rfl

/-! ### The sampling point by priority (R294, R295) -/

/-- The source chosen once this point's edge is latched: down the chain of R295, the first whose condition holds. -/
theorem State.latched_chosenSource (s : State) : s.latched.chosenSource s.input =
    if s.input.trap = true then some .trap
    else if s.inte = false ∨ s.eiInhibit = true then none
    else if (s.r75 = true ∨ s.input.e75 = true) ∧ s.m75 = false then some .rst75
    else if s.input.l65 = true ∧ s.m65 = false then some .rst65
    else if s.input.l55 = true ∧ s.m55 = false then some .rst55
    else if s.input.intr = true then some .intr
    else none := by
  by_cases hoff : s.inte = false ∨ s.eiInhibit = true
  · rcases hoff with h | h <;> simp [State.chosenSource, State.latched, h]
  · obtain ⟨hinte, hinhibit⟩ : s.inte = true ∧ s.eiInhibit = false := by simpa using hoff
    simp [State.chosenSource, State.latched, hinte, hinhibit]

/-- A source with an entry address of its own is taken to it. -/
theorem State.sample_of_chosenSource {s : State} {source : IntSource} (hne : source ≠ .intr)
    (h : s.latched.chosenSource s.input = some source) :
    s.sample = .next (s.latched.takeInterrupt source source.entry) := by
  rw [State.latched] at h ⊢
  cases source with
  | intr => exact absurd rfl hne
  | trap | rst75 | rst65 | rst55 => simp only [State.sample, h]

/-- INTR is taken to where its instruction goes. -/
theorem State.sample_of_intrTarget {s : State} {target : Addr} (h : s.latched.chosenSource s.input = some .intr)
    (htarget : intrTarget s.input.intrOp s.input.intrLo s.input.intrHi = some target) :
    s.sample = .next (s.latched.takeInterrupt .intr target) := by
  rw [State.latched] at h ⊢
  simp only [State.sample, h, htarget]

/-- INTR with an instruction that goes nowhere is refused. -/
theorem State.sample_of_no_intrTarget {s : State} (h : s.latched.chosenSource s.input = some .intr)
    (htarget : intrTarget s.input.intrOp s.input.intrLo s.input.intrHi = none) :
    s.sample = .refused (.intrInstruction s.input.intrOp) := by
  rw [State.latched] at h
  simp only [State.sample, h, htarget]

/-- Settles O41: condition by condition, the source that the chain chooses is the one taken. -/
theorem samplingTakesTheHighestPriority : Obligations.SamplingTakesTheHighestPriority := by
  unfold Obligations.SamplingTakesTheHighestPriority
  intro s
  have hchosen := s.latched_chosenSource
  dsimp only
  split_ifs with htrap hoff h75 h65 h55 hintr
  · exact State.sample_of_chosenSource nofun (hchosen.trans (if_pos htrap))
  all_goals rw [if_neg htrap] at hchosen
  · exact State.sample_none (hchosen.trans (if_pos hoff))
  all_goals rw [if_neg hoff] at hchosen
  · exact State.sample_of_chosenSource nofun (hchosen.trans (if_pos h75))
  all_goals rw [if_neg h75] at hchosen
  · exact State.sample_of_chosenSource nofun (hchosen.trans (if_pos h65))
  all_goals rw [if_neg h65] at hchosen
  · exact State.sample_of_chosenSource nofun (hchosen.trans (if_pos h55))
  all_goals rw [if_neg h55] at hchosen
  · rw [if_pos hintr] at hchosen
    split
    next htarget => exact State.sample_of_intrTarget hchosen htarget
    next htarget => exact State.sample_of_no_intrTarget hchosen htarget
  · exact State.sample_none (hchosen.trans (if_neg hintr))

/-- Settles O43: the targets of R301, and INTR as the only source that the state of the last clause requests. -/
theorem intrAcceptsRestartAndCallOnly : Obligations.IntrAcceptsRestartAndCallOnly := by
  unfold Obligations.IntrAcceptsRestartAndCallOnly
  refine ⟨fun n lo hi => ?rst, intrTarget_call, fun op lo hi hcall hrst => ?other,
    fun s htrap hinte hinhibit hr75 he75 h65 h55 hintr hcall hrst => ?refused⟩
  case rst => rw [intrTarget_rst, restartAddress_eq]
  case other => exact (intrTarget_eq_none_iff op lo hi).mpr ⟨hcall, hrst⟩
  case refused =>
    have hchosen : s.latched.chosenSource s.input = some .intr := by
      simp [State.latched_chosenSource, htrap, hinte, hinhibit, hr75, he75, h65, h55, hintr]
    exact State.sample_of_no_intrTarget hchosen ((intrTarget_eq_none_iff _ _ _).mpr ⟨hcall, hrst⟩)

/-- What a sampling point answers: nothing is taken; or a source is, whose request is present and enabled; or INTR is
refused. -/
theorem State.sample_outcome (s : State) :
    s.sample = .next (nothingTaken s) ∨
    (∃ source target, RequestedAt s source target ∧ (source ≠ .trap → s.inte = true ∧ s.eiInhibit = false) ∧
      s.sample = .next (s.latched.takeInterrupt source target)) ∨
    (s.input.intr = true ∧ intrTarget s.input.intrOp s.input.intrLo s.input.intrHi = none ∧
      s.sample = .refused (.intrInstruction s.input.intrOp)) := by
  have hchosen := s.latched_chosenSource
  split_ifs at hchosen with htrap hoff h75 h65 h55 hintr
  · exact .inr (.inl ⟨.trap, _, ⟨htrap, rfl⟩, nofun, State.sample_of_chosenSource nofun hchosen⟩)
  · exact .inl (State.sample_none hchosen)
  all_goals have hon : s.inte = true ∧ s.eiInhibit = false := by simpa using hoff
  · obtain ⟨hrequest, hmask⟩ := h75
    exact .inr (.inl ⟨.rst75, _, ⟨hrequest, hmask, rfl⟩, fun _ => hon, State.sample_of_chosenSource nofun hchosen⟩)
  · obtain ⟨hrequest, hmask⟩ := h65
    exact .inr (.inl ⟨.rst65, _, ⟨hrequest, hmask, rfl⟩, fun _ => hon, State.sample_of_chosenSource nofun hchosen⟩)
  · obtain ⟨hrequest, hmask⟩ := h55
    exact .inr (.inl ⟨.rst55, _, ⟨hrequest, hmask, rfl⟩, fun _ => hon, State.sample_of_chosenSource nofun hchosen⟩)
  · cases htarget : intrTarget s.input.intrOp s.input.intrLo s.input.intrHi with
    | none => exact .inr (.inr ⟨hintr, rfl, State.sample_of_no_intrTarget hchosen htarget⟩)
    | some target =>
      exact .inr (.inl ⟨.intr, target, ⟨hintr, htarget⟩, fun _ => hon, State.sample_of_intrTarget hchosen htarget⟩)
  · exact .inl (State.sample_none hchosen)

/-! ### The halt state (R296, R311, R312) -/

/-- Settles O60, by what a step of a halted machine and its sampling point can answer. -/
theorem haltEndsOnlyByInterruptOrReset : Obligations.HaltEndsOnlyByInterruptOrReset := by
  unfold Obligations.HaltEndsOnlyByInterruptOrReset
  intro s t hh hstep
  rcases step_cases hstep with hreset | ⟨hr, _, hsample⟩ | ⟨_, hrunning, _⟩
  · exact .inl hreset
  · rcases s.sample_outcome with h | ⟨source, target, hrequest, hon, h⟩ | ⟨_, _, h⟩ <;>
      cases h.symm.trans hsample
    · exact .inr (.inl ⟨hr, rfl⟩)
    · have hmem : (s.latched.takeInterrupt source target).mem = (s.push16 s.pc).mem :=
        (s.latched.takeInterrupt_mem source target).trans
          (State.push16_mem_congr (s := s.latched) (t := s) rfl rfl rfl s.pc)
      exact .inr (.inr ⟨source, hr, hrequest, hon, s.latched.takeInterrupt_halted source target,
        s.latched.takeInterrupt_inte source target, s.latched.takeInterrupt_sp source target,
        s.latched.acknowledge_mem_takeInterrupt_trace source target, hmem⟩)
  · cases hh.symm.trans hrunning

/-- With a quiet input, and no RST 7.5 request latched that could be taken, a sampling point uses up its input and
changes nothing else. -/
theorem State.sample_quiet {s : State} (hquiet : s.input.quiet = true) (h75 : s.takeable75 = false) :
    s.sample = .next { s with env := s.env.tail } := by
  obtain ⟨htrap, he75, h65, h55, _, _, hintr, _⟩ := EnvInput.quiet_fields hquiet
  have hlatched : s.latched = { s with env := s.env.tail } := by simp [State.latched, he75]
  have hnone : s.latched.chosenSource s.input = none := by
    rw [State.latched_chosenSource]
    by_cases hoff : s.inte = false ∨ s.eiInhibit = true
    · simp [htrap, hoff]
    · obtain ⟨hinte, hinhibit⟩ : s.inte = true ∧ s.eiInhibit = false := by simpa using hoff
      have hmasked : s.r75 = true → s.m75 = true := by simpa [State.takeable75, hinte, hinhibit] using h75
      simpa [htrap, hinte, hinhibit, he75, h65, h55, hintr] using hmasked
  rw [State.sample_none hnone, hlatched]

/-- A halted machine that is not reset only samples (R296). -/
theorem step_halted {s : State} (hh : s.halted = true) (hr : s.input.reset = false) : step s = s.sample := by
  simp [step, hh, hr]

/-- A machine at its end uses up an input in a step, and changes nothing else. -/
theorem step_finished {s : State} (h : s.finished = true) : step s = .next { s with env := s.env.tail } := by
  simp only [State.finished, Bool.and_eq_true, Bool.not_eq_true'] at h
  obtain ⟨⟨hh, hquiet⟩, h75⟩ := h
  have hinput := State.noInterrupts_input hquiet
  obtain ⟨_, _, _, _, _, _, _, hr⟩ := EnvInput.quiet_fields hinput
  rw [step_halted hh hr, State.sample_quiet hinput h75]

/-- With an input used up it is still at its end: there is one less to come. -/
theorem State.finished_env_tail {s : State} (h : s.finished = true) :
    ({ s with env := s.env.tail } : State).finished = true := by
  simp only [State.finished, Bool.and_eq_true] at h ⊢
  obtain ⟨⟨hh, hquiet⟩, h75⟩ := h
  exact ⟨⟨hh, State.noInterrupts_of_env_tail (s := s) rfl hquiet⟩, h75⟩

theorem core_run_succ {s t : State} (h : step s = .next t) (k : Nat) : core.run (k + 1) s = core.run k t := by
  have hcore : core.step s = .next t := h
  simp only [Host.Core.run, hcore]

/-- Any number of steps from the end use up as many inputs, and change nothing else. -/
theorem core_run_finished {s : State} (h : s.finished = true) (k : Nat) :
    core.run k s = .next { s with env := s.env.drop k } := by
  induction k generalizing s with
  | zero => rfl
  | succ k ih => rw [core_run_succ (step_finished h), ih (State.finished_env_tail h), List.drop_tail]

/-- Settles O59, by induction on the number of steps; where no input is listed, none is used up. -/
theorem haltedIsFinalWithoutInterrupts : Obligations.HaltedIsFinalWithoutInterrupts := by
  unfold Obligations.HaltedIsFinalWithoutInterrupts
  intro s k h
  have hrun := core_run_finished h k
  refine ⟨hrun, fun henv => ?_⟩
  have hsame : { s with env := s.env.drop k } = s := by rw [henv, List.drop_nil, ← henv]
  rw [hrun, hsame]

/-! ### Where a step stops (R280, R281, R301) -/

/-- Every instruction but an undefined op code has a next state: no instruction traps (R280). -/
theorem exec_total {i : Instr} (hi : ∀ op, i ≠ .undefinedOp op) (s : State) : ∃ t, exec i s = .next t := by
  cases i with
  | undefinedOp op => exact absurd rfl (hi op)
  | _ => exact ⟨_, rfl⟩

/-- An instruction that stops is an undefined op code, and stops with its fault. -/
theorem exec_cases (i : Instr) (s : State) :
    (∃ t, exec i s = .next t) ∨ ∃ op, i = .undefinedOp op ∧ exec i s = .fault (.undefinedOpcode op s.pc) := by
  by_cases hi : ∃ op, i = .undefinedOp op
  · obtain ⟨op, rfl⟩ := hi
    exact .inr ⟨op, rfl, exec_undefinedOp op s⟩
  · exact .inl (exec_total (fun op h => hi ⟨op, h⟩) s)

/-- A fetch decodes the op code byte at pc with some bytes after it. -/
theorem State.fetch_eq_decodeBytes (s : State) :
    ∃ byte2 byte3, s.fetch.1 = decodeBytes (s.load s.pc).1 byte2 byte3 := by
  rcases opLength_cases (s.load s.pc).1 with h | h | h
  · exact ⟨_, _, congrArg Prod.fst (State.fetch_of_opLength_one h)⟩
  · exact ⟨_, _, congrArg Prod.fst (State.fetch_of_opLength_two h)⟩
  · exact ⟨_, _, congrArg Prod.fst (State.fetch_of_opLength_three h)⟩

@[simp] theorem State.fetch_pc (s : State) : s.fetch.2.pc = s.pc := by
  obtain ⟨_, _, _, h⟩ := s.fetch_frame
  rw [h]

/-- An undefined instruction is fetched only from an undefined op code byte, and is the one of that byte (R80). -/
theorem State.fetch_undefinedOp {s : State} {op : Byte} (h : s.fetch.1 = .undefinedOp op) :
    op = (s.load s.pc).1 ∧ (s.load s.pc).1 ∈ undefinedOpcodes := by
  obtain ⟨byte2, byte3, hfetch⟩ := s.fetch_eq_decodeBytes
  have hmem : (s.load s.pc).1 ∈ undefinedOpcodes := mem_undefinedOpcodes_of_decodeBytes (hfetch.symm.trans h)
  rw [h, decodeBytes_of_mem_undefinedOpcodes hmem, Instr.undefinedOp.injEq] at hfetch
  exact ⟨hfetch, hmem⟩

/-- No sampling point faults. -/
theorem State.sample_ne_fault (s : State) (f : Fault) : s.sample ≠ .fault f := by
  rcases s.sample_outcome with h | ⟨_, _, _, _, h⟩ | ⟨_, _, h⟩ <;> rw [h] <;> nofun

/-- A sampling point that refuses has INTR with an instruction that is neither RST n nor CALL. -/
theorem State.sample_refused {s : State} {r : Refusal} (h : s.sample = .refused r) :
    s.input.intr = true ∧ r = .intrInstruction s.input.intrOp ∧
      s.input.intrOp ≠ 0xCD ∧ s.input.intrOp &&& 0xC7 ≠ 0xC7 := by
  rcases s.sample_outcome with h' | ⟨_, _, _, _, h'⟩ | ⟨hintr, htarget, h'⟩ <;> cases h'.symm.trans h
  exact ⟨hintr, rfl, (intrTarget_eq_none_iff _ _ _).mp htarget⟩

/-- What a step answers in every state: that of a reset; that of a sampling point, at which the current input stands; or
the fault of the undefined op code byte at the pc of a running machine. -/
theorem step_outcome (s : State) :
    (s.input.reset = true ∧ step s = .next s.applyReset) ∨ (∃ u : State, u.input = s.input ∧ step s = u.sample) ∨
    (s.halted = false ∧ (s.load s.pc).1 ∈ undefinedOpcodes ∧
      step s = .fault (.undefinedOpcode (s.load s.pc).1 s.pc)) := by
  cases hr : s.input.reset with
  | true => exact .inl ⟨rfl, if_pos hr⟩
  | false =>
    cases hh : s.halted with
    | true => exact .inr (.inl ⟨s, rfl, step_halted hh hr⟩)
    | false =>
      rw [step_running hh hr]
      rcases exec_cases s.fetch.1 s.fetch.2 with ⟨u, hexec⟩ | ⟨op, hfetch, hexec⟩ <;> rw [hexec]
      · exact .inr (.inl ⟨u, State.input_congr ((exec_env hexec).trans s.fetch_env), rfl⟩)
      · obtain ⟨rfl, hmem⟩ := State.fetch_undefinedOp hfetch
        rw [State.fetch_pc]
        exact .inr (.inr ⟨rfl, hmem, rfl⟩)

theorem step_fault {s : State} {f : Fault} (h : step s = .fault f) :
    s.halted = false ∧ (s.load s.pc).1 ∈ undefinedOpcodes ∧ f = .undefinedOpcode (s.load s.pc).1 s.pc := by
  rcases step_outcome s with ⟨_, h'⟩ | ⟨u, _, h'⟩ | ⟨hh, hmem, h'⟩
  · cases h'.symm.trans h
  · exact absurd (h'.symm.trans h) (u.sample_ne_fault f)
  · cases h'.symm.trans h
    exact ⟨hh, hmem, rfl⟩

theorem step_refused {s : State} {r : Refusal} (h : step s = .refused r) :
    s.input.intr = true ∧ r = .intrInstruction s.input.intrOp ∧
      s.input.intrOp ≠ 0xCD ∧ s.input.intrOp &&& 0xC7 ≠ 0xC7 := by
  rcases step_outcome s with ⟨_, h'⟩ | ⟨u, hinput, h'⟩ | ⟨_, _, h'⟩
  · cases h'.symm.trans h
  · rw [← hinput]
    exact State.sample_refused (h'.symm.trans h)
  · cases h'.symm.trans h

/-- Settles O58; its last clause leaves a step neither of the two ways to stop. -/
theorem onlyUndefinedOpcodesAndForeignIntrStop : Obligations.OnlyUndefinedOpcodesAndForeignIntrStop := by
  unfold Obligations.OnlyUndefinedOpcodesAndForeignIntrStop
  refine ⟨fun i s hi => exec_total hi s, fun s f => step_fault, fun s r => step_refused,
    fun s hplain hop hintr => ?_⟩
  cases hstep : step s with
  | next t => exact ⟨t, rfl⟩
  | fault f =>
    obtain ⟨_, hmem, _⟩ := step_fault hstep
    rw [State.load_plain hplain] at hmem
    exact absurd hmem hop
  | refused r =>
    obtain ⟨hintr', _⟩ := step_refused hstep
    cases hintr.symm.trans hintr'

end Sys2Proof.Machine
end

section
/-! PROOFS. T states and reset (70_reset_and_hazards.md): what each shape of meaning adds to the counter (R331), the table
of R332 instruction by instruction, and the state a reset step ends in (R320). -/

namespace Sys2Proof.Machine

/-! ### Operations that count no T state -/

@[simp] theorem State.drawPsw_tstates (s : State) : s.drawPsw.2.tstates = s.tstates := rfl

@[simp] theorem State.readOperand_tstates (s : State) (src : Operand) :
    (s.readOperand src).2.tstates = s.tstates := by
  obtain ⟨_, _, _, h⟩ := s.readOperand_frame src
  rw [h]

/-! ### What the shapes of meaning count (R331, R332) -/

section Shapes

variable (s : State)

@[simp] theorem State.accumulate_tstates (f : Byte → Byte → Bool → Byte × Flags) (src : Operand) :
    (s.accumulate f src).tstates = s.tstates + src.tstates := by
  simp [State.accumulate]

@[simp] theorem State.compare_tstates (src : Operand) : (s.compare src).tstates = s.tstates + src.tstates := by
  simp [State.compare]

@[simp] theorem State.stepReg_tstates (f : Byte → Flags → Byte × Flags) (r : Reg) :
    (s.stepReg f r).tstates = s.tstates + 4 := rfl

@[simp] theorem State.stepMem_tstates (f : Byte → Flags → Byte × Flags) :
    (s.stepMem f).tstates = s.tstates + 10 := by
  simp [State.stepMem]

@[simp] theorem State.callTo_tstates (target : Addr) (len t : Nat) :
    (s.callTo target len t).tstates = s.tstates + t := by
  simp [State.callTo]

@[simp] theorem State.returnFrom_tstates (t : Nat) : (s.returnFrom t).tstates = s.tstates + t := by
  simp [State.returnFrom]

/-- A conditional jump counts fewer T states where its condition does not hold. -/
theorem State.jumpIf_tstates (cond : Cond) (target : Addr) :
    (s.jumpIf cond target).tstates = s.tstates + if s.flags.holds cond then 10 else 7 := by
  unfold State.jumpIf
  split
  · exact s.retire_tstates _ _
  · exact s.advance_tstates _ _

/-- A conditional call counts fewer T states where its condition does not hold. -/
theorem State.callIf_tstates (cond : Cond) (target : Addr) :
    (s.callIf cond target).tstates = s.tstates + if s.flags.holds cond then 18 else 9 := by
  unfold State.callIf
  split
  · exact s.callTo_tstates _ _ _
  · exact s.advance_tstates _ _

/-- A conditional return counts fewer T states where its condition does not hold. -/
theorem State.returnIf_tstates (cond : Cond) :
    (s.returnIf cond).tstates = s.tstates + if s.flags.holds cond then 12 else 6 := by
  unfold State.returnIf
  split
  · exact s.returnFrom_tstates _
  · exact s.advance_tstates _ _

end Shapes

/-! ### The table of T states (R332) -/

/-- Settles O57, by the shape of each meaning. An instruction with no shape of its own ends in one `advance` or `retire`
with its count, after operations that count nothing. -/
theorem tStatesFollowTheTable : Obligations.TStatesFollowTheTable := by
  unfold Obligations.TStatesFollowTheTable
  intro i s t h
  cases i with
  | add _ | addM | adi _ | adc _ | adcM | aci _ | sub _ | subM | sui _ | sbb _ | sbbM | sbi _ | ana _ | anaM | ani _
  | xra _ | xraM | xri _ | ora _ | oraM | ori _ =>
    cases h
    exact s.accumulate_tstates _ _
  | cmp _ | cmpM | cpi _ =>
    cases h
    exact s.compare_tstates _
  | inr _ | dcr _ =>
    cases h
    exact s.stepReg_tstates _ _
  | inrM | dcrM =>
    cases h
    exact s.stepMem_tstates _
  | jnz _ | jz _ | jnc _ | jc _ | jpo _ | jpe _ | jp _ | jm _ =>
    cases h
    exact s.jumpIf_tstates _ _
  | cnz _ | cz _ | cnc _ | cc _ | cpo _ | cpe _ | cp _ | cm _ =>
    cases h
    exact s.callIf_tstates _ _
  | rnz | rz | rnc | rc | rpo | rpe | rp | rm =>
    cases h
    exact s.returnIf_tstates _
  | call _ | rst _ =>
    cases h
    exact s.callTo_tstates _ _ _
  | ret =>
    cases h
    exact s.returnFrom_tstates _
  | undefinedOp _ => cases h
  | _ =>
    cases h
    simp [tStatesOf]

/-! ### Reset (R320) -/

/-- A reset in the input of a step is the whole step: nothing is fetched, executed or sampled. -/
theorem step_reset {s : State} (h : s.input.reset = true) : step s = .next s.applyReset := if_pos h

/-- Settles O46, by the state of a reset event, which every step with a reset in its input answers. -/
theorem resetWinsAndFixesItsState : Obligations.ResetWinsAndFixesItsState := by
  unfold Obligations.ResetWinsAndFixesItsState
  exact fun s h => ⟨s.applyReset, step_reset h, rfl, rfl, rfl, rfl, rfl, rfl, rfl, rfl, rfl, rfl, rfl, rfl, rfl⟩

end Sys2Proof.Machine
end
